-- ==== Sys2Proof/Word.lean ====
section
/-! DEFINITION. The word types of the block (spec/00_scope.md section 5; spec/30_encoding.md R70, R75). -/
namespace Sys2Proof

/-- A command, data, composed or bus byte: 8 bits (00_scope.md section 4). -/
abbrev Byte := BitVec 8

/-- A request word: 24 bits (R70, R83). -/
abbrev ReqWord := BitVec 24

/-- A bus device address: 7 bits (R6, R50). -/
abbrev BusAddr := BitVec 7

end Sys2Proof
end

