-- ==== Sys2Proof/Config.lean ====
section
/-! DEFINITION. What a construction fixes (spec/00_scope.md R5, R6, R7) and the free values: constants without a body,
for what the spec leaves to a draw (20_memory.md R52, R64; 93_implementation_defined.md U3, U7, U14). -/
namespace Sys2Proof

/-- The Device Configuration, "Set at construction; never mutated" (R5, R22). -/
structure DeviceConfig where
  /-- `cfg.ADDR`, the bus device address. -/
  addr  : BusAddr
  /-- `cfg.COLS`, the display width; legal values 1 to 255. -/
  cols  : Byte
  /-- `cfg.LINES`, the display height; legal values 1 to 4. -/
  lines : BitVec 3
  /-- `cfg.FONT`: 0 = 5x8, 1 = 5x10. -/
  font  : BitVec 1
deriving DecidableEq, Repr

/-- Legal configuration values (R6). ADDR and FONT are legal at every value of their width. -/
def DeviceConfig.legal (c : DeviceConfig) : Bool :=
  decide (1 ≤ c.cols.toNat) && decide (1 ≤ c.lines.toNat) && decide (c.lines.toNat ≤ 4)

/-- The answer of the Bus Transport to one write (R52). -/
inductive Answer where
  | ok
  | fail
deriving DecidableEq, Repr, Inhabited

/-- The kinds of wait (R31, R163). -/
inductive WaitKind where
  | eDelay
  | ePulse
  | initSettle
deriving DecidableEq, Repr

namespace Config

/-- FREE VALUE (R52: "a free input of the step (a draw of the transport oracle), under no law"): the transport's answer to
draw `n`, where `State.answers` lists none. Log 4. -/
opaque freeAnswer : Nat → Answer

/-- FREE VALUE (R38, R64; 93 U3, U7): what the expander's latch holds at power-up (argument 0) and after a write answered
`fail` (argument: the number of answers drawn, that one included). Log 5. -/
opaque freeLatch : Nat → Byte

/-- FREE VALUE: an entry past the four of the Row Offset Table. No legal configuration reaches one (R107). Log 15. -/
opaque freeRowOffset : Nat → Nat

/-- PARAMETER `T_POWERUP` in microseconds (R242; 93 U14), left open by the spec. Log 12. -/
opaque tPowerup : Nat

end Config
end Sys2Proof
end

