-- ==== Sys2Proof/Syntax.lean ====
section
/-! DEFINITION. The requests (spec/30_encoding.md R70) and the operations: one constructor for each row of
spec/opcode_table.json (R72). A term may be ill formed; WellFormed.lean says which are not (R73). -/
namespace Sys2Proof

/-- One request at the port: the 24-bit word and the payload `P` (R70). -/
structure Request where
  word    : ReqWord
  payload : List Byte
deriving DecidableEq, Repr

/-- The operations of R72 with their operands as R70 names them. -/
inductive Instr where
  | init
  /-- `n` is field A, the payload's length; `p` the payload. -/
  | writeLine (n : Byte) (p : List Byte)
  | setCursor (col row : Byte)
  | clear
  | home
  /-- `on` is field A. -/
  | setBacklight (on : Byte)
  | display
  | noDisplay
  | cursor
  | noCursor
  | blink
  | noBlink
  | sendCmd (v : Byte)
  | sendData (v : Byte)
  /-- `x` is field A, the composed byte. -/
  | pulse (x : Byte)
deriving DecidableEq, Repr

end Sys2Proof
end

