-- ==== Sys2Proof/WellFormed.lean ====
section
/-! DEFINITION. The field constraints of spec/30_encoding.md R73 on an operation's operands. The constraints on fields an
operation does not have (A or B must be 0) are the decoder's: no term of `Instr` can break them. -/
namespace Sys2Proof

/-- For PULSE, A[2:1] = 0: the enable and RW bits are clear (R73, R76). -/
def composedClear (x : Byte) : Bool := x &&& 0x06 == 0

/-- Well formed per R73. -/
def Instr.wellFormed : Instr → Bool
  | .init => true
  | .writeLine n p => p.length == n.toNat
  | .setCursor _ _ => true
  | .clear => true
  | .home => true
  | .setBacklight on => on == 0 || on == 1
  | .display => true
  | .noDisplay => true
  | .cursor => true
  | .noCursor => true
  | .blink => true
  | .noBlink => true
  | .sendCmd _ => true
  | .sendData _ => true
  | .pulse x => composedClear x

end Sys2Proof
end

