-- ==== Sys2Proof/Decode.lean ====
section
/-! DEFINITION. The request encoding (spec/30_encoding.md R70, R72, R73, R74, R83, R87): opcodes, the table's rows, the
decoder, total and rejecting by name, and the encoder. -/
namespace Sys2Proof

/-! ## Opcodes (R72) -/
namespace Opcode
def init         : Byte := 0x01
def writeLine    : Byte := 0x02
def setCursor    : Byte := 0x03
def clear        : Byte := 0x04
def home         : Byte := 0x05
def setBacklight : Byte := 0x06
def display      : Byte := 0x08
def noDisplay    : Byte := 0x09
def cursor       : Byte := 0x0A
def noCursor     : Byte := 0x0B
def blink        : Byte := 0x0C
def noBlink      : Byte := 0x0D
def sendCmd      : Byte := 0x10
def sendData     : Byte := 0x11
def pulse        : Byte := 0x12
end Opcode

/-- The OP field of an operation (R72). -/
def Instr.opcode : Instr → Byte
  | .init => Opcode.init
  | .writeLine _ _ => Opcode.writeLine
  | .setCursor _ _ => Opcode.setCursor
  | .clear => Opcode.clear
  | .home => Opcode.home
  | .setBacklight _ => Opcode.setBacklight
  | .display => Opcode.display
  | .noDisplay => Opcode.noDisplay
  | .cursor => Opcode.cursor
  | .noCursor => Opcode.noCursor
  | .blink => Opcode.blink
  | .noBlink => Opcode.noBlink
  | .sendCmd _ => Opcode.sendCmd
  | .sendData _ => Opcode.sendData
  | .pulse _ => Opcode.pulse

/-! ## Fields of the request word (R70) -/

/-- OP, bits 23:16. -/
def Request.op (r : Request) : Byte := r.word.extractLsb' 16 8
/-- A, bits 15:8. -/
def Request.a (r : Request) : Byte := r.word.extractLsb' 8 8
/-- B, bits 7:0. -/
def Request.b (r : Request) : Byte := r.word.extractLsb' 0 8

/-- The word with the given fields (R70). -/
def mkWord (op a b : Byte) : ReqWord := op ++ a ++ b

/-- The total length in bits, known from OP and A alone (R83). -/
def requestBits (op a : Byte) : Nat :=
  if op = Opcode.writeLine then 24 + 8 * a.toNat else 24

/-! ## The decoder -/

/-- Why a request is refused at decode (R73, R74). The block reports all of them alike, as status REFUSED (R204). -/
inductive Reject where
  /-- The opcode is not in R72 (R74). -/
  | reservedOpcode
  /-- A is marked 0 for this opcode and is not zero (R73). -/
  | fieldA
  /-- B is marked 0 for this opcode and is not zero (R73). -/
  | fieldB
  /-- SET_BACKLIGHT with A outside 0 and 1 (R73). -/
  | onFlag
  /-- PULSE with A[2:1] not 0 (R73). -/
  | controlBits
  /-- WRITE_LINE with a payload that does not hold exactly A bytes (R73). -/
  | payloadLength
  /-- A payload beside another opcode; R70 and R87 give it none. Log 6. -/
  | strayPayload
deriving DecidableEq, Repr

/-- Format N (R87): A and B zero, no payload. -/
def decodeNone (r : Request) (i : Instr) : Except Reject Instr :=
  if r.a ≠ 0 then .error .fieldA
  else if r.b ≠ 0 then .error .fieldB
  else if r.payload ≠ [] then .error .strayPayload
  else .ok i

/-- Formats F, V and X (R87): one operand in A, B zero, no payload. -/
def decodeA (r : Request) (f : Byte → Instr) : Except Reject Instr :=
  if r.b ≠ 0 then .error .fieldB
  else if r.payload ≠ [] then .error .strayPayload
  else .ok (f r.a)

/-- Format CR (R87): column in A, row in B, no payload. -/
def decodeAB (r : Request) (f : Byte → Byte → Instr) : Except Reject Instr :=
  if r.payload ≠ [] then .error .strayPayload
  else .ok (f r.a r.b)

/-- Format L (R87): the payload's length in A, B zero. -/
def decodeLine (r : Request) (f : Byte → List Byte → Instr) : Except Reject Instr :=
  if r.b ≠ 0 then .error .fieldB
  else .ok (f r.a r.payload)

/-- The operation a request's fields name, before the constraints on its operands (R72, R74). -/
def decodeFields (r : Request) : Except Reject Instr :=
  match r.op.toNat with
  | 0x01 => decodeNone r .init
  | 0x02 => decodeLine r .writeLine
  | 0x03 => decodeAB r .setCursor
  | 0x04 => decodeNone r .clear
  | 0x05 => decodeNone r .home
  | 0x06 => decodeA r .setBacklight
  | 0x08 => decodeNone r .display
  | 0x09 => decodeNone r .noDisplay
  | 0x0A => decodeNone r .cursor
  | 0x0B => decodeNone r .noCursor
  | 0x0C => decodeNone r .blink
  | 0x0D => decodeNone r .noBlink
  | 0x10 => decodeA r .sendCmd
  | 0x11 => decodeA r .sendData
  | 0x12 => decodeA r .pulse
  | _ => .error .reservedOpcode

/-- The name of the operand constraint an ill-formed operation breaks (R73). -/
def Instr.constraint : Instr → Reject
  | .writeLine _ _ => .payloadLength
  | .setBacklight _ => .onFlag
  | _ => .controlBits

/-- Decode one request, checking every constraint of R73 and R74. -/
def decode (r : Request) : Except Reject Instr :=
  match decodeFields r with
  | .error e => .error e
  | .ok i => if i.wellFormed then .ok i else .error i.constraint

/-! ## The encoder -/

/-- The request of an operation (R70, R72). -/
def encode : Instr → Request
  | .init => ⟨mkWord Opcode.init 0 0, []⟩
  | .writeLine n p => ⟨mkWord Opcode.writeLine n 0, p⟩
  | .setCursor col row => ⟨mkWord Opcode.setCursor col row, []⟩
  | .clear => ⟨mkWord Opcode.clear 0 0, []⟩
  | .home => ⟨mkWord Opcode.home 0 0, []⟩
  | .setBacklight on => ⟨mkWord Opcode.setBacklight on 0, []⟩
  | .display => ⟨mkWord Opcode.display 0 0, []⟩
  | .noDisplay => ⟨mkWord Opcode.noDisplay 0 0, []⟩
  | .cursor => ⟨mkWord Opcode.cursor 0 0, []⟩
  | .noCursor => ⟨mkWord Opcode.noCursor 0 0, []⟩
  | .blink => ⟨mkWord Opcode.blink 0 0, []⟩
  | .noBlink => ⟨mkWord Opcode.noBlink 0 0, []⟩
  | .sendCmd v => ⟨mkWord Opcode.sendCmd v 0, []⟩
  | .sendData v => ⟨mkWord Opcode.sendData v 0, []⟩
  | .pulse x => ⟨mkWord Opcode.pulse x 0, []⟩

/-! ## The rows of spec/opcode_table.json (R87) -/

/-- One row: "A request matches a row when `word & mask = match`" (R87). -/
structure TableRow where
  mask    : ReqWord
  pattern : ReqWord
deriving DecidableEq, Repr

/-- The word matches the row (R87). -/
def TableRow.covers (t : TableRow) (w : ReqWord) : Bool := w &&& t.mask == t.pattern

/-- The table row of an operation, with the mask and match of spec/opcode_table.json. -/
def Instr.row : Instr → TableRow
  | .init => ⟨0xFFFFFF, 0x010000⟩
  | .writeLine _ _ => ⟨0xFF00FF, 0x020000⟩
  | .setCursor _ _ => ⟨0xFF0000, 0x030000⟩
  | .clear => ⟨0xFFFFFF, 0x040000⟩
  | .home => ⟨0xFFFFFF, 0x050000⟩
  | .setBacklight _ => ⟨0xFFFEFF, 0x060000⟩
  | .display => ⟨0xFFFFFF, 0x080000⟩
  | .noDisplay => ⟨0xFFFFFF, 0x090000⟩
  | .cursor => ⟨0xFFFFFF, 0x0A0000⟩
  | .noCursor => ⟨0xFFFFFF, 0x0B0000⟩
  | .blink => ⟨0xFFFFFF, 0x0C0000⟩
  | .noBlink => ⟨0xFFFFFF, 0x0D0000⟩
  | .sendCmd _ => ⟨0xFF00FF, 0x100000⟩
  | .sendData _ => ⟨0xFF00FF, 0x110000⟩
  | .pulse _ => ⟨0xFF06FF, 0x120000⟩

/-- All fifteen rows, in the table's order. -/
def tableRows : List TableRow :=
  [Instr.row .init, Instr.row (.writeLine 0 []), Instr.row (.setCursor 0 0), Instr.row .clear, Instr.row .home,
   Instr.row (.setBacklight 0), Instr.row .display, Instr.row .noDisplay, Instr.row .cursor, Instr.row .noCursor,
   Instr.row .blink, Instr.row .noBlink, Instr.row (.sendCmd 0), Instr.row (.sendData 0), Instr.row (.pulse 0)]

/-! ## Words numbered as the opcode table numbers them -/

/-- The request whose word is bits 23:0 of `w` and, for WRITE_LINE, whose payload byte `j` is bits `31 + 8j : 24 + 8j`,
bits at or above `nbits` being 0 (R83: the payload follows the word). Log 3. -/
def tableRequest (nbits w : Nat) : Request :=
  let v := w % 2 ^ nbits
  let word : ReqWord := BitVec.ofNat 24 v
  let n := if word.extractLsb' 16 8 = Opcode.writeLine then (word.extractLsb' 8 8).toNat else 0
  ⟨word, (List.range n).map fun j => BitVec.ofNat 8 (v / 2 ^ (24 + 8 * j))⟩

/-- What the decoder reads from such a word. -/
def decodeTableWord (nbits w : Nat) : Option Instr :=
  match decode (tableRequest nbits w) with
  | .ok i => some i
  | .error _ => none

end Sys2Proof
end

