-- ==== Sys2Proof/Machine/Tables.lean ====
section
/-! DEFINITION. The block's read-only tables (spec/10_state.md R30): bus byte masks (30_encoding.md R75), command values
(R80), flag values (R81), the Row Offset Table (R30), SPACE (40_facade.md R104), wait minimums (00_scope.md R7) and the
reset values of the Control State (R24, R38). The values the spec marks as general knowledge or as its own decision are
gathered in log 14. -/
namespace Sys2Proof.Machine

/-! ## Bus byte masks (R75) -/
def RS_MASK   : Byte := 0x01
def RW_MASK   : Byte := 0x02
def EN_MASK   : Byte := 0x04
def BL_MASK   : Byte := 0x08
def DATA_MASK : Byte := 0xF0

/-! ## Command values (R80) -/
def CLEARDISPLAY   : Byte := 0x01
def RETURNHOME     : Byte := 0x02
def ENTRYMODESET   : Byte := 0x04
def DISPLAYCONTROL : Byte := 0x08
/-- No facade operation emits it (R80). -/
def CURSORSHIFT    : Byte := 0x10
def FUNCTIONSET    : Byte := 0x20
/-- No facade operation emits it (R80). -/
def SETCGRAMADDR   : Byte := 0x40
/-- A number, not a byte: SET_CURSOR ORs it into a sum of unbounded width (R108). -/
def SETDDRAMADDR   : Nat := 0x80
/-- The two raw legacy commands of the handshake (R102, R103). -/
def HANDSHAKE_1    : Byte := 0x33
def HANDSHAKE_2    : Byte := 0x32

/-! ## Flag values (R81) -/
def ENTRYRIGHT          : Byte := 0x00
def ENTRYLEFT           : Byte := 0x02
def ENTRYSHIFTINCREMENT : Byte := 0x01
def ENTRYSHIFTDECREMENT : Byte := 0x00
def DISPLAYON  : Byte := 0x04
def DISPLAYOFF : Byte := 0x00
def CURSORON   : Byte := 0x02
def CURSOROFF  : Byte := 0x00
def BLINKON    : Byte := 0x01
def BLINKOFF   : Byte := 0x00
def DISPLAYMOVE : Byte := 0x08
def CURSORMOVE  : Byte := 0x00
def MOVERIGHT   : Byte := 0x04
def MOVELEFT    : Byte := 0x00
def MODE_8BIT   : Byte := 0x10
def MODE_4BIT   : Byte := 0x00
def LINES_2     : Byte := 0x08
def LINES_1     : Byte := 0x00
def DOTS_5x10   : Byte := 0x04
def DOTS_5x8    : Byte := 0x00
def BACKLIGHT   : Byte := 0x08
def NOBACKLIGHT : Byte := 0x00

/-! ## Row Offset Table, SPACE (R30, R104) -/
def ROW_OFFSET : List Nat := [0x00, 0x40, 0x14, 0x54]

/-- Lookup of a clamped row (R30). Past the four entries the value is free; a legal configuration never looks there
(R107). Log 15. -/
def rowOffset (r : Nat) : Nat := ROW_OFFSET[r]?.getD (Config.freeRowOffset r)

/-- The padding character code (R104). -/
def SPACE : Byte := 0x20

/-! ## Wait minimums (R7, R163), in microseconds -/
def minMicros : WaitKind → Nat
  | .eDelay => 500
  | .ePulse => 500
  | .initSettle => 500

/-! ## Reset values of the Control State (R24, R38) -/

/-- DF from the configuration (R24): N = `LINES > 1`, F = `FONT = 1 and LINES = 1`, DL = 0. -/
def dfOf (c : DeviceConfig) : Byte :=
  (if 1 < c.lines.toNat then LINES_2 else LINES_1) |||
    (if c.font = 1 ∧ c.lines.toNat = 1 then DOTS_5x10 else DOTS_5x8)

def DM_RESET : Byte := 0x02
def DC_RESET : Byte := 0x04
def BL_RESET : BitVec 1 := 0

end Sys2Proof.Machine
end

