-- ==== Sys2Proof/Machine/State.lean ====
section
/-! DEFINITION. The state of the block (spec/10_state.md), plain data: configuration, Control State, phase, response, trace
and ghost state; the expander's latch; and the environment's inputs (the host's requests, the transport's answers). -/
namespace Sys2Proof.Machine

/-- The Control State registers DF, DM, DC, BL (R23 to R27). -/
structure ControlState where
  df : Byte
  dm : Byte
  dc : Byte
  bl : BitVec 1
deriving DecidableEq, Repr

/-- The response registers RSP.STATUS, RSP.K, RSP.V (R32). -/
structure Response where
  status : BitVec 2
  k      : Byte
  v      : Byte
deriving DecidableEq, Repr

/-- An observed event (R31). -/
inductive Event where
  /-- `W(a, v, r)` -/
  | write (a : BusAddr) (v : Byte) (r : Answer)
  /-- `T(kind)` -/
  | wait (kind : WaitKind)
  /-- `END(op, status)` -/
  | ended (op : Byte) (status : BitVec 2)
deriving DecidableEq, Repr

/-- What the sequencer does next within an operation: `MemWrite(ADDR, 1, v)` (R52) or `Wait(kind)` (R163). -/
inductive Action where
  | write (v : Byte)
  | wait (kind : WaitKind)
deriving DecidableEq, Repr

/-- The operation in progress: its opcode, the write counter `k` (R100), the sequencer's position, "the count of events
produced so far" (R21), and the actions still to do. Log 7. -/
structure Running where
  op   : Byte
  k    : Nat
  pos  : Nat
  todo : List Action
deriving DecidableEq, Repr

/-- The sequencer's phase (R36). -/
inductive Phase where
  | idle
  | busy (run : Running)
deriving DecidableEq, Repr

/-- Ghost `SYNC` (R34). -/
inductive Sync where
  | powerup
  | synced
  | unknown
deriving DecidableEq, Repr

structure State where
  /-- Configuration registers (R22). -/
  cfg         : DeviceConfig
  /-- Control State registers (R23). -/
  ctl         : ControlState
  /-- Sequencer phase (R36). -/
  phase       : Phase
  /-- Response registers (R32). -/
  rsp         : Response
  /-- The trace, oldest event first (R31). -/
  trace       : List Event
  /-- Ghost `SYNC` (R34). -/
  sync        : Sync
  /-- Ghost `UNINIT_USE` (R35). -/
  uninitUse   : Bool
  /-- Ghost `REFUSED_MARK` (R35). -/
  refusedMark : Bool
  /-- The expander's output latch, external (R37, R64). Log 5. -/
  expander    : Byte
  /-- The requests the host will still present, in its order; the head is at the port (R71). Log 3. -/
  requests    : List Request
  /-- The transport's next answers, as far as they are given (R52). Log 4. -/
  answers     : List Answer
  /-- How many answers were drawn: the counter of the free values. Log 4. -/
  draws       : Nat
deriving DecidableEq, Repr

/-- Faults: states the spec says no block is in. Both are safe: the model stops where the spec describes no machine.
Neither is raised by an operation. Log 8. -/
inductive Fault where
  /-- Raised by `step` on an illegal configuration: "no block exists for it" (00_scope.md R6; 60_exceptions.md R204). Safe. -/
  | noBlock
  /-- Raised by `step` when RSP.STATUS is 3: "never produced; a model that sees it `fault`s" (93 U15; R78). Safe. -/
  | reservedStatus
deriving DecidableEq, Repr

/-- Refusals of the model. The block's own status REFUSED is not one of them: it is a next state (R204). -/
inductive Refusal where
  /-- Raised by `exec` for an instruction without a meaning. Safe. No arm raises it. -/
  | notModelled (mnemonic : String)
  /-- Raised by `exec` in a BUSY state: "while `BUSY` the host cannot present another request" (R36). Safe. `step` never
  calls `exec` there. Log 7. -/
  | requestWhileBusy
deriving DecidableEq, Repr

/-- The state after construction with a configuration (R38, R240). -/
def State.constructed (c : DeviceConfig) : State where
  cfg         := c
  ctl         := ⟨dfOf c, DM_RESET, DC_RESET, BL_RESET⟩
  phase       := .idle
  rsp         := ⟨0, 0, 0⟩
  trace       := []
  sync        := .powerup
  uninitUse   := false
  refusedMark := false
  expander    := Config.freeLatch 0
  requests    := []
  answers     := []
  draws       := 0

/-- The state after reset: a block constructed as the spec's vectors construct theirs, ADDR 0x27, 16 columns, 2 lines, 5x8
font (95_test_vectors.md, conventions). Log 2. -/
def State.reset : State := State.constructed ⟨0x27, 16, 2, 0⟩

end Sys2Proof.Machine
end

