-- ==== Sys2Proof/Machine/Flags.lean ====
section
/-! DEFINITION. Status values and the response word (spec/30_encoding.md R78), the read-modify-write of DC (10_state.md R29),
and the transitions of the ghost flags (R34, R35). -/
namespace Sys2Proof.Machine

/-! ## Status values (R78) -/
def STATUS_OK                : BitVec 2 := 0
def STATUS_TRANSPORT_FAILURE : BitVec 2 := 1
def STATUS_REFUSED           : BitVec 2 := 2

/-- The 18-bit response word `{STATUS, K, V}` (R78). -/
def Response.word (r : Response) : BitVec 18 := r.status ++ r.k ++ r.v

/-- `min(k, 255)` in 8 bits (R32, R201). -/
def saturate (k : Nat) : Byte := BitVec.ofNat 8 (min k 255)

/-! ## Read-modify-write of DC and BL (R29) -/

/-- `DC <- DC | mask` -/
def ControlState.setDC (c : ControlState) (mask : Byte) : ControlState := { c with dc := c.dc ||| mask }

/-- `DC <- DC & ~mask`, with the 8-bit complement -/
def ControlState.clearDC (c : ControlState) (mask : Byte) : ControlState := { c with dc := c.dc &&& ~~~mask }

/-- `BL <- b` (R113) -/
def ControlState.setBL (c : ControlState) (b : BitVec 1) : ControlState := { c with bl := b }

/-! ## Ghost flags -/

/-- `SYNC` after an operation ends (R34). A refused request leaves it. Log 9 for the INIT case. -/
def nextSync (op : Byte) (status : BitVec 2) (old : Sync) : Sync :=
  if status = STATUS_TRANSPORT_FAILURE then .unknown
  else if status = STATUS_OK ∧ op = Opcode.init then .synced
  else if status = STATUS_OK ∧ op = Opcode.pulse then .unknown
  else old

/-- `UNINIT_USE` when an accepted operation begins (R35, R100). -/
def nextUninit (op : Byte) (sync : Sync) (old : Bool) : Bool :=
  old || (op != Opcode.init && sync != .synced)

end Sys2Proof.Machine
end

