-- ==== Sys2Proof/Machine/Operands.lean ====
section
/-! DEFINITION. How operands become bytes and bytes become actions: the line function (spec/40_facade.md R104), the row clamp
and address composition (R107, R108), the command bytes (30_encoding.md R80), the nibble encoder (41_byte_sender.md R140)
and the pulse (42_pulse.md R160). -/
namespace Sys2Proof.Machine

/-! ## The line function (R104) -/

/-- Exactly `cols` bytes: the payload cut to `cols`, then spaces. -/
def lineOf (cols : Nat) (p : List Byte) : List Byte :=
  p.take cols ++ List.replicate (cols - p.length) SPACE

/-! ## SET_CURSOR (R107, R108) -/

/-- The row clamp on unsigned numbers (R107). -/
def clampRow (lines row : Nat) : Nat := if row ≥ lines then lines - 1 else row

/-- `0x80 | (col + ROW_OFFSET[r])`, the sum without bound (R108). -/
def cursorSum (c : DeviceConfig) (col row : Byte) : Nat :=
  SETDDRAMADDR ||| (col.toNat + rowOffset (clampRow c.lines.toNat row.toNat))

/-- Only bits 7:0 are transmitted (R108, R145). -/
def cursorCommand (c : DeviceConfig) (col row : Byte) : Byte := BitVec.ofNat 8 (cursorSum c col row)

/-! ## Command bytes built from the Control State (R80) -/
def entryModeCommand (c : ControlState) : Byte := ENTRYMODESET ||| c.dm
def displayControlCommand (c : ControlState) : Byte := DISPLAYCONTROL ||| c.dc
def functionSetCommand (c : ControlState) : Byte := FUNCTIONSET ||| c.df

/-! ## The nibble encoder (R140) -/

/-- The mode `m` of `SendByte`: "command=0 / data=1". -/
inductive SendMode where
  | command
  | data
deriving DecidableEq, Repr

/-- `zext_8(m)`, in the place of RS (R75). -/
def SendMode.bits : SendMode → Byte
  | .command => 0x00
  | .data => RS_MASK

/-- `BLV` (R27). -/
def backlightBits (c : ControlState) : Byte := if c.bl = 1 then BL_MASK else 0x00

/-- The composed byte of the high nibble (R140). -/
def hiByte (c : ControlState) (v : Byte) (m : SendMode) : Byte :=
  m.bits ||| (v &&& DATA_MASK) ||| backlightBits c

/-- The composed byte of the low nibble (R140). -/
def loByte (c : ControlState) (v : Byte) (m : SendMode) : Byte :=
  m.bits ||| ((v <<< 4) &&& DATA_MASK) ||| backlightBits c

/-! ## Procedures, as the actions they make -/

/-- `Pulse(x)` (R160): three writes, a wait after each. -/
def pulse (x : Byte) : List Action :=
  [.write (x &&& ~~~EN_MASK), .wait .eDelay,
   .write (x ||| EN_MASK),    .wait .ePulse,
   .write (x &&& ~~~EN_MASK), .wait .eDelay]

/-- `SendByte(v, m)` (R140): the high nibble's pulse, then the low nibble's, both with the BL of its start (R142). -/
def sendByte (c : ControlState) (v : Byte) (m : SendMode) : List Action :=
  pulse (hiByte c v m) ++ pulse (loByte c v m)

/-- Several bytes in turn, left to right (R102, R106). -/
def sendBytes (c : ControlState) (vs : List Byte) (m : SendMode) : List Action :=
  vs.flatMap fun v => sendByte c v m

end Sys2Proof.Machine
end

