-- ==== Sys2Proof/Machine/Ops.lean ====
section
/-! DEFINITION. The shared operations: the bus write (spec/20_memory.md R52), the sequencer event by event (10_state.md R21,
R36), the operation frame (40_facade.md R100), the abort on a transport failure (60_exceptions.md R201, R209), the refusal
(R204) and construction (70_reset_and_hazards.md R240). There is no return from an abort (R210). -/
namespace Sys2Proof.Machine

/-! ## The Bus Transport's answers (R52) -/

/-- The answer to the `j`-th write from here on: the listed one, else the free value. Log 4. -/
def State.answerAt (s : State) (j : Nat) : Answer :=
  s.answers[j]?.getD (Config.freeAnswer (s.draws + j))

/-- `MemWrite(ADDR, 1, v)` answered `r`: the event is appended, the answer is used up, and the latch of the expander holds
`v`, or after a failure anything (R52, R64). -/
def State.busWrite (s : State) (v : Byte) (r : Answer) : State :=
  { s with
    trace    := s.trace ++ [.write s.cfg.addr v r]
    expander := match r with
      | .ok => v
      | .fail => Config.freeLatch (s.draws + 1)
    answers  := s.answers.tail
    draws    := s.draws + 1 }

/-- `Wait(kind)` (R163): the event, and no time. -/
def State.busWait (s : State) (kind : WaitKind) : State := { s with trace := s.trace ++ [.wait kind] }

/-! ## The end of an operation (R100) -/

/-- `finish(st, kk, vv)` (R100). -/
def State.finish (s : State) (op : Byte) (st : BitVec 2) (kk vv : Byte) : State :=
  { s with
    trace := s.trace ++ [.ended op st]
    rsp   := ⟨st, kk, vv⟩
    sync  := nextSync op st s.sync
    phase := .idle }

/-- Taking the block's one exception, TransportFailure at write number `k` of byte `v` (R201, R209): status, `min(k, 255)`
and the byte are saved, the Control State stays (R202), and the block is IDLE again (R203). -/
def State.abort (s : State) (op : Byte) (k : Nat) (v : Byte) : State :=
  s.finish op STATUS_TRANSPORT_FAILURE (saturate k) v

/-- Refusing a request (R100, R204). -/
def State.refuse (s : State) (op : Byte) : State :=
  State.finish { s with refusedMark := true } op STATUS_REFUSED 0 0

/-! ## The sequencer, one event at a time (R21, R36) -/

/-- The next event of the operation in progress; an IDLE block holds its state (R216). -/
def tick (s : State) : State :=
  match s.phase with
  | .idle => s
  | .busy run =>
    match run.todo with
    | [] => s.finish run.op STATUS_OK 0 0
    | .wait kind :: rest =>
      { s.busWait kind with phase := .busy { run with pos := run.pos + 1, todo := rest } }
    | .write v :: rest =>
      match s.answerAt 0 with
      | .ok => { s.busWrite v .ok with phase := .busy { run with k := run.k + 1, pos := run.pos + 1, todo := rest } }
      | .fail => (s.busWrite v .fail).abort run.op (run.k + 1) v

/-- `n` events. -/
def ticks : Nat → State → State
  | 0, s => s
  | n + 1, s => ticks n (tick s)

/-- Run the operation in progress to its END: "an operation runs to its `END` event before the next request is accepted"
(R21). One event for each action left and one END are enough. -/
def runToEnd (s : State) : State :=
  match s.phase with
  | .idle => s
  | .busy run => ticks (run.todo.length + 1) s

/-! ## The operation frame (R100) -/

/-- A body: the Control State change, made first (R101), and the actions that follow it. -/
structure Plan where
  ctl    : ControlState
  script : List Action
deriving DecidableEq, Repr

/-- Accept a well-formed request (R36, R100): BUSY, UNINIT_USE, `k <- 0`, and the Control State change (R101). -/
def State.accept (s : State) (op : Byte) (p : Plan) : State :=
  { s with
    phase     := .busy ⟨op, 0, 0, p.script⟩
    uninitUse := nextUninit op s.sync s.uninitUse
    ctl       := p.ctl }

/-- `Execute(req)` (R100) for an operation with opcode `op`, its check of R73 and its body. -/
def operation (op : Byte) (wf : Bool) (body : DeviceConfig → ControlState → Plan) (s : State) :
    Host.Outcome State Fault Refusal :=
  match s.phase with
  | .busy _ => .refused .requestWhileBusy
  | .idle => .next (if wf then runToEnd (s.accept op (body s.cfg s.ctl)) else s.refuse op)

/-! ## Construction (R240) -/

/-- Construct a block; "a configuration outside 00_scope.md rule R6 is refused at construction: no block exists" (R204). -/
def construct (addr cols lines font : Nat) : Option State :=
  if addr ≤ 127 ∧ 1 ≤ cols ∧ cols ≤ 255 ∧ 1 ≤ lines ∧ lines ≤ 4 ∧ font ≤ 1 then
    some (State.constructed ⟨BitVec.ofNat 7 addr, BitVec.ofNat 8 cols, BitVec.ofNat 3 lines, BitVec.ofNat 1 font⟩)
  else none

end Sys2Proof.Machine
end

