-- ==== Sys2Proof/Machine/ByteSender.lean ====
section
/-! DEFINITION. The Byte Sender's request-port primitives (spec/41_byte_sender.md R143, R144). -/
namespace Sys2Proof.Machine

/-- Any byte as a command, unchecked (R143). -/
def bodySendCmd (v : Byte) (_cfg : DeviceConfig) (c : ControlState) : Plan := ⟨c, sendByte c v .command⟩

def execSendCmd (v : Byte) (s : State) : Host.Outcome State Fault Refusal :=
  operation Opcode.sendCmd (Instr.sendCmd v).wellFormed (bodySendCmd v) s

/-- Any byte as data (R144). -/
def bodySendData (v : Byte) (_cfg : DeviceConfig) (c : ControlState) : Plan := ⟨c, sendByte c v .data⟩

def execSendData (v : Byte) (s : State) : Host.Outcome State Fault Refusal :=
  operation Opcode.sendData (Instr.sendData v).wellFormed (bodySendData v) s

end Sys2Proof.Machine
end

