-- ==== Sys2Proof/Machine/Facade.lean ====
section
/-! DEFINITION. The Controller Facade's operations (spec/40_facade.md): each a Control State change, possibly none, and then
the bytes it hands to the Byte Sender (30_encoding.md R82). -/
namespace Sys2Proof.Machine

/-! ## INIT (R102, R103) -/

/-- The six command bytes, in the source's order, then the settle wait of its own. INIT writes no Control State. -/
def bodyInit (_cfg : DeviceConfig) (c : ControlState) : Plan :=
  ⟨c, sendByte c HANDSHAKE_1 .command
      ++ sendByte c HANDSHAKE_2 .command
      ++ sendByte c (entryModeCommand c) .command
      ++ sendByte c (displayControlCommand c) .command
      ++ sendByte c (functionSetCommand c) .command
      ++ sendByte c CLEARDISPLAY .command
      ++ [.wait .initSettle]⟩

def execInit (s : State) : Host.Outcome State Fault Refusal :=
  operation Opcode.init Instr.init.wellFormed bodyInit s

/-! ## WRITE_LINE (R104 to R106) -/

/-- `Line(P)`, `cfg.COLS` data bytes, left to right. -/
def bodyWriteLine (p : List Byte) (cfg : DeviceConfig) (c : ControlState) : Plan :=
  ⟨c, sendBytes c (lineOf cfg.cols.toNat p) .data⟩

def execWriteLine (n : Byte) (p : List Byte) (s : State) : Host.Outcome State Fault Refusal :=
  operation Opcode.writeLine (Instr.writeLine n p).wellFormed (bodyWriteLine p) s

/-! ## SET_CURSOR (R107 to R109) -/

def bodySetCursor (col row : Byte) (cfg : DeviceConfig) (c : ControlState) : Plan :=
  ⟨c, sendByte c (cursorCommand cfg col row) .command⟩

def execSetCursor (col row : Byte) (s : State) : Host.Outcome State Fault Refusal :=
  operation Opcode.setCursor (Instr.setCursor col row).wellFormed (bodySetCursor col row) s

/-! ## CLEAR and HOME (R110, R111) -/

def bodyClear (_cfg : DeviceConfig) (c : ControlState) : Plan :=
  ⟨c, sendByte c CLEARDISPLAY .command⟩

def execClear (s : State) : Host.Outcome State Fault Refusal :=
  operation Opcode.clear Instr.clear.wellFormed bodyClear s

def bodyHome (_cfg : DeviceConfig) (c : ControlState) : Plan :=
  ⟨c, sendByte c RETURNHOME .command⟩

def execHome (s : State) : Host.Outcome State Fault Refusal :=
  operation Opcode.home Instr.home.wellFormed bodyHome s

/-! ## SET_BACKLIGHT (R112, R113) -/

/-- After its Control State change an operation sends DISPLAYCONTROL with the whole of DC and the current BL, whether or not
the change changed anything (R113, R120). -/
def sendDisplayControl (c : ControlState) : Plan := ⟨c, sendByte c (displayControlCommand c) .command⟩

/-- `ctl.BL <- A[0]`, then DISPLAYCONTROL, which carries the new BL. -/
def bodySetBacklight (on : Byte) (_cfg : DeviceConfig) (c : ControlState) : Plan :=
  sendDisplayControl (c.setBL (on.extractLsb' 0 1))

def execSetBacklight (on : Byte) (s : State) : Host.Outcome State Fault Refusal :=
  operation Opcode.setBacklight (Instr.setBacklight on).wellFormed (bodySetBacklight on) s

/-! ## Display-control toggles (R114 to R121): one bit of DC, then DISPLAYCONTROL -/

/-- R114 -/
def bodyDisplay (_cfg : DeviceConfig) (c : ControlState) : Plan := sendDisplayControl (c.setDC DISPLAYON)

def execDisplay (s : State) : Host.Outcome State Fault Refusal :=
  operation Opcode.display Instr.display.wellFormed bodyDisplay s

/-- R115 -/
def bodyNoDisplay (_cfg : DeviceConfig) (c : ControlState) : Plan := sendDisplayControl (c.clearDC DISPLAYON)

def execNoDisplay (s : State) : Host.Outcome State Fault Refusal :=
  operation Opcode.noDisplay Instr.noDisplay.wellFormed bodyNoDisplay s

/-- R116 -/
def bodyCursor (_cfg : DeviceConfig) (c : ControlState) : Plan := sendDisplayControl (c.setDC CURSORON)

def execCursor (s : State) : Host.Outcome State Fault Refusal :=
  operation Opcode.cursor Instr.cursor.wellFormed bodyCursor s

/-- R117 -/
def bodyNoCursor (_cfg : DeviceConfig) (c : ControlState) : Plan := sendDisplayControl (c.clearDC CURSORON)

def execNoCursor (s : State) : Host.Outcome State Fault Refusal :=
  operation Opcode.noCursor Instr.noCursor.wellFormed bodyNoCursor s

/-- R118 -/
def bodyBlink (_cfg : DeviceConfig) (c : ControlState) : Plan := sendDisplayControl (c.setDC BLINKON)

def execBlink (s : State) : Host.Outcome State Fault Refusal :=
  operation Opcode.blink Instr.blink.wellFormed bodyBlink s

/-- R119 -/
def bodyNoBlink (_cfg : DeviceConfig) (c : ControlState) : Plan := sendDisplayControl (c.clearDC BLINKON)

def execNoBlink (s : State) : Host.Outcome State Fault Refusal :=
  operation Opcode.noBlink Instr.noBlink.wellFormed bodyNoBlink s

end Sys2Proof.Machine
end

