-- ==== Sys2Proof/Machine/PulseTransmitter.lean ====
section
/-! DEFINITION. The Pulse Transmitter's request-port primitive (spec/42_pulse.md R166). -/
namespace Sys2Proof.Machine

/-- One pulse of the operand; BL is not read (R166). -/
def bodyPulse (x : Byte) (_cfg : DeviceConfig) (c : ControlState) : Plan := ⟨c, pulse x⟩

def execPulse (x : Byte) (s : State) : Host.Outcome State Fault Refusal :=
  operation Opcode.pulse (Instr.pulse x).wellFormed (bodyPulse x) s

end Sys2Proof.Machine
end

