-- ==== Sys2Proof/Machine/Dispatch.lean ====
section
/-! DEFINITION. One arm for each operation of spec/opcode_table.json. -/
namespace Sys2Proof.Machine

def exec (i : Instr) (s : State) : Host.Outcome State Fault Refusal :=
  match i with
  | .init => Sys2Proof.Machine.execInit s
  | .writeLine n p => Sys2Proof.Machine.execWriteLine n p s
  | .setCursor col row => Sys2Proof.Machine.execSetCursor col row s
  | .clear => Sys2Proof.Machine.execClear s
  | .home => Sys2Proof.Machine.execHome s
  | .setBacklight on => Sys2Proof.Machine.execSetBacklight on s
  | .display => Sys2Proof.Machine.execDisplay s
  | .noDisplay => Sys2Proof.Machine.execNoDisplay s
  | .cursor => Sys2Proof.Machine.execCursor s
  | .noCursor => Sys2Proof.Machine.execNoCursor s
  | .blink => Sys2Proof.Machine.execBlink s
  | .noBlink => Sys2Proof.Machine.execNoBlink s
  | .sendCmd v => Sys2Proof.Machine.execSendCmd v s
  | .sendData v => Sys2Proof.Machine.execSendData v s
  | .pulse x => Sys2Proof.Machine.execPulse x s

end Sys2Proof.Machine
end

