-- ==== Sys2Proof/Machine/Step.lean ====
section
/-! DEFINITION. One step of the block: the request at the port is decoded and run to its END (spec/30_encoding.md R71;
10_state.md R36). Log 1 for the size of a step. -/
namespace Sys2Proof.Machine

def step (s : State) : Host.Outcome State Fault Refusal :=
  if s.cfg.legal = false then .fault .noBlock
  else if s.rsp.status = 3 then .fault .reservedStatus
  else match s.phase with
    | .busy _ => .next (runToEnd s)
    | .idle =>
      match s.requests with
      | [] => .next s
      | r :: rest =>
        match decode r with
        | .ok i => exec i { s with requests := rest }
        | .error _ => .next (State.refuse { s with requests := rest } r.op)

/-- The request of a table word is the next at the port, and the block is IDLE to take it. Log 3. -/
def State.withFetchWord (s : State) (nbits w : Nat) : State :=
  { s with phase := .idle, requests := tableRequest nbits w :: s.requests.tail }

end Sys2Proof.Machine
end

