-- ==== Sys2Proof/Machine/Assembler.lean ====
section
/-! DEFINITION. The assembler syntax (spec/30_encoding.md R84) and the pseudo-instructions (R85): one line of text to one
operation. It checks the syntax and that each operand fits its field; the constraints of R73 are the block's to check, so
`PULSE 0x04` assembles (95_test_vectors.md V6). Log 16. -/
namespace Sys2Proof.Machine

/-- The assembler's operands: numbers, or the bytes of a text. -/
inductive AsmOperand where
  | numbers (ns : List Nat)
  | text (bytes : List Byte)
deriving DecidableEq, Repr

def dropSpaces (l : List Char) : List Char := l.dropWhile (· == ' ')

def trimSpaces (l : List Char) : List Char := (dropSpaces (dropSpaces l).reverse).reverse

/-- The value of a digit, below 16. -/
def digitValue (c : Char) : Option Nat :=
  if '0'.toNat ≤ c.toNat ∧ c.toNat ≤ '9'.toNat then some (c.toNat - '0'.toNat)
  else if 'a'.toNat ≤ c.toNat ∧ c.toNat ≤ 'f'.toNat then some (c.toNat - 'a'.toNat + 10)
  else if 'A'.toNat ≤ c.toNat ∧ c.toNat ≤ 'F'.toNat then some (c.toNat - 'A'.toNat + 10)
  else none

/-- Digits in a base, after those already read. -/
def digits (base : Nat) : List Char → Nat → Option Nat
  | [], acc => some acc
  | c :: rest, acc =>
    match digitValue c with
    | some d => if d < base then digits base rest (base * acc + d) else none
    | none => none

/-- "a decimal or `0x` hexadecimal number" (R84). -/
def number : List Char → Option Nat
  | '0' :: 'x' :: c :: rest => digits 16 (c :: rest) 0
  | c :: rest => digits 10 (c :: rest) 0
  | [] => none

/-- The pieces between commas. -/
def splitCommas : List Char → List (List Char)
  | [] => [[]]
  | c :: rest =>
    if c = ',' then [] :: splitCommas rest
    else match splitCommas rest with
      | piece :: more => (c :: piece) :: more
      | [] => [[c]]

/-- Operands separated by commas; none where there is no text. -/
def numbers (l : List Char) : Option (List Nat) :=
  if trimSpaces l = [] then some [] else (splitCommas l).mapM fun p => number (trimSpaces p)

/-- A number that fits one byte. -/
def byteOf (n : Nat) : Option Byte := if n ≤ 255 then some (BitVec.ofNat 8 n) else none

/-- The text of a double-quoted string, "each character one byte, its code unchanged" (R84). -/
def quoted (l : List Char) : Option (List Byte) :=
  if l.dropWhile (· != '"') = ['"'] then (l.takeWhile (· != '"')).mapM fun c => byteOf c.toNat else none

/-- A string or a bracketed byte list (R84). -/
def textOperand (l : List Char) : Option (List Byte) :=
  match l with
  | '"' :: rest => quoted rest
  | '[' :: rest =>
    match rest.reverse with
    | ']' :: inner => do (← numbers inner.reverse).mapM byteOf
    | _ => none
  | _ => none

/-- The operands of a line. -/
def asmOperand (l : List Char) : Option AsmOperand :=
  match textOperand (trimSpaces l) with
  | some bytes => some (.text bytes)
  | none => (numbers l).map .numbers

/-- The forms of R84, and the pseudo-instructions of R85. -/
def asmInstr (mnemonic : List Char) (o : AsmOperand) : Option Instr :=
  match o with
  | .numbers [] =>
    if mnemonic = "INIT".toList then some .init
    else if mnemonic = "CLEAR".toList then some .clear
    else if mnemonic = "HOME".toList then some .home
    else if mnemonic = "DISPLAY".toList then some .display
    else if mnemonic = "NO_DISPLAY".toList then some .noDisplay
    else if mnemonic = "CURSOR".toList then some .cursor
    else if mnemonic = "NO_CURSOR".toList then some .noCursor
    else if mnemonic = "BLINK".toList then some .blink
    else if mnemonic = "NO_BLINK".toList then some .noBlink
    else if mnemonic = "BACKLIGHT".toList then some (.setBacklight 1)
    else if mnemonic = "NO_BACKLIGHT".toList then some (.setBacklight 0)
    else none
  | .numbers [n] =>
    if mnemonic = "SET_BACKLIGHT".toList then (byteOf n).map .setBacklight
    else if mnemonic = "SEND_CMD".toList then (byteOf n).map .sendCmd
    else if mnemonic = "SEND_DATA".toList then (byteOf n).map .sendData
    else if mnemonic = "PULSE".toList then (byteOf n).map .pulse
    else none
  | .numbers [m, n] =>
    if mnemonic = "SET_CURSOR".toList then do some (.setCursor (← byteOf m) (← byteOf n)) else none
  | .numbers _ => none
  | .text bytes =>
    if mnemonic = "WRITE_LINE".toList then (byteOf bytes.length).map fun n => .writeLine n bytes else none

/-- One line of assembly (R84). -/
def assembleLine (line : List Char) : Option Instr :=
  let l := dropSpaces line
  (asmOperand (l.dropWhile (· != ' '))).bind (asmInstr (trimSpaces (l.takeWhile (· != ' '))))

/-- One line of assembly to the request it stands for. -/
def assemble (line : String) : Option Request := (assembleLine line.toList).map encode

end Sys2Proof.Machine
end

