-- ==== Sys2Proof/Safety.lean ====
section
/-! DEFINITION. The terms claims are stated in: what the rules say an operation sends (spec/30_encoding.md R75, R82;
41_byte_sender.md R140, R141; 42_pulse.md R161), what the controller's side of the wires would make of it (20_memory.md
R54, R56), lower bounds on time (70_reset_and_hazards.md R254), the invariants, and the launch premises. Written from the
rules with literal values, beside the machine, not through it. -/
namespace Sys2Proof.Machine

/-! ## Premises on the transport's answers -/

/-- The next `n` writes are answered `ok`. -/
abbrev State.allOk (s : State) (n : Nat) : Prop := ∀ j < n, s.answerAt j = .ok

/-- The next `m` writes are answered `ok` and the one after them `fail`. -/
abbrev State.failsAt (s : State) (m : Nat) : Prop := s.allOk m ∧ s.answerAt m = .fail

/-! ## What the rules say is sent -/

/-- The six events of a successful pulse (R161). -/
def pulseEvents (a : BusAddr) (x : Byte) : List Event :=
  [.write a x .ok, .wait .eDelay, .write a (x ||| 0x04) .ok, .wait .ePulse, .write a x .ok, .wait .eDelay]

/-- The backlight bit of a composed byte (R27). -/
def blv (bl : BitVec 1) : Byte := if bl = 1 then 0x08 else 0x00

/-- The composed bytes of `b` in mode `m` (R141). -/
def highComposed (m b : Byte) (bl : BitVec 1) : Byte := m ||| (b &&& 0xF0) ||| blv bl
def lowComposed (m b : Byte) (bl : BitVec 1) : Byte := m ||| ((b <<< 4) &&& 0xF0) ||| blv bl

/-- The events of one byte sent (R140). -/
def byteEvents (a : BusAddr) (bl : BitVec 1) (m b : Byte) : List Event :=
  pulseEvents a (highComposed m b bl) ++ pulseEvents a (lowComposed m b bl)

/-- The Control State after an operation, whatever its status but REFUSED (R101, R113 to R119, R202). -/
def ctlAfter (i : Instr) (c : ControlState) : ControlState :=
  match i with
  | .setBacklight on => { c with bl := on.extractLsb' 0 1 }
  | .display => { c with dc := c.dc ||| 0x04 }
  | .noDisplay => { c with dc := c.dc &&& 0xFB }
  | .cursor => { c with dc := c.dc ||| 0x02 }
  | .noCursor => { c with dc := c.dc &&& 0xFD }
  | .blink => { c with dc := c.dc ||| 0x01 }
  | .noBlink => { c with dc := c.dc &&& 0xFE }
  | .init | .writeLine _ _ | .setCursor _ _ | .clear | .home | .sendCmd _ | .sendData _ | .pulse _ => c

/-- The bytes an operation hands to the Byte Sender, each with its mode, 0 for a command and 1 for data (R82); `c` is the
Control State after the operation's change. -/
def bytesSent (i : Instr) (cfg : DeviceConfig) (c : ControlState) : List (Byte × Byte) :=
  match i with
  | .init => [(0x33, 0), (0x32, 0), (0x04 ||| c.dm, 0), (0x08 ||| c.dc, 0), (0x20 ||| c.df, 0), (0x01, 0)]
  | .writeLine _ p => (lineOf cfg.cols.toNat p).map fun b => (b, 1)
  | .setCursor col row => [(cursorCommand cfg col row, 0)]
  | .clear => [(0x01, 0)]
  | .home => [(0x02, 0)]
  | .setBacklight _ | .display | .noDisplay | .cursor | .noCursor | .blink | .noBlink => [(0x08 ||| c.dc, 0)]
  | .sendCmd v => [(v, 0)]
  | .sendData v => [(v, 1)]
  | .pulse _ => []

/-- The `W` and `T` events of an operation whose every write is answered `ok`, in the state it starts in (R82, R102, R166). -/
def successEvents (i : Instr) (s : State) : List Event :=
  let c := ctlAfter i s.ctl
  match i with
  | .pulse x => pulseEvents s.cfg.addr x
  | .init => (bytesSent i s.cfg c).flatMap (fun p => byteEvents s.cfg.addr c.bl p.2 p.1) ++ [.wait .initSettle]
  | _ => (bytesSent i s.cfg c).flatMap fun p => byteEvents s.cfg.addr c.bl p.2 p.1

/-! ## Reading a list of events -/

/-- The bytes written, whatever their answers. -/
def writesOf : List Event → List Byte
  | [] => []
  | .write _ v _ :: es => v :: writesOf es
  | .wait _ :: es => writesOf es
  | .ended _ _ :: es => writesOf es

/-- The `W` and `T` events, without the `END`s. -/
def busEvents : List Event → List Event
  | [] => []
  | .write a v r :: es => .write a v r :: busEvents es
  | .wait k :: es => .wait k :: busEvents es
  | .ended _ _ :: es => busEvents es

/-- The events up to write number `m`, counted from 0, that write answered `fail` and being the last (R201). -/
def cutAtWrite : Nat → List Event → List Event
  | _, [] => []
  | 0, .write a v _ :: _ => [.write a v .fail]
  | m + 1, .write a v r :: es => .write a v r :: cutAtWrite m es
  | m, .wait k :: es => .wait k :: cutAtWrite m es
  | m, .ended op st :: es => .ended op st :: cutAtWrite m es

/-- What the expander's latch holds after the events, all writes answered `ok` (R37). -/
def latchAfter (l : Byte) : List Event → Byte
  | [] => l
  | .write _ v _ :: es => latchAfter v es
  | .wait _ :: es => latchAfter l es
  | .ended _ _ :: es => latchAfter l es

/-- The events after the last `END`, `acc` being those already read since one. -/
def sinceEndFrom (acc : List Event) : List Event → List Event
  | [] => acc
  | .write a v r :: es => sinceEndFrom (acc ++ [.write a v r]) es
  | .wait k :: es => sinceEndFrom (acc ++ [.wait k]) es
  | .ended _ _ :: es => sinceEndFrom [] es

/-- The events after the last `END`. -/
def sinceEnd (es : List Event) : List Event := sinceEndFrom [] es

/-- The status of the last `END`, or 0 where none has been (R32). -/
def lastStatus : List Event → BitVec 2 → BitVec 2
  | [], st => st
  | .ended _ st :: es, _ => lastStatus es st
  | .write _ _ _ :: es, st => lastStatus es st
  | .wait _ :: es, st => lastStatus es st

/-- The events a run from `s` to `t` appended. -/
def newEvents (s t : State) : List Event := t.trace.drop s.trace.length

/-- The least time the waits of the events take, in microseconds: each at least 0.5 ms (R7, R163, R254). -/
def minDurationMicros : List Event → Nat
  | [] => 0
  | .wait _ :: es => 500 + minDurationMicros es
  | .write _ _ _ :: es => minDurationMicros es
  | .ended _ _ :: es => minDurationMicros es

/-! ## The controller's side of the wires (R54, R56) -/

/-- The bytes on the lines at each falling edge of EN, "falling edge completes the latch" (R56, R160), `prev` being the
byte on the lines before. -/
def latchedAtFallingEdge (prev : Byte) : List Byte → List Byte
  | [] => []
  | b :: bs =>
    if prev &&& 0x04 = 0x04 ∧ b &&& 0x04 = 0 then b :: latchedAtFallingEdge b bs else latchedAtFallingEdge b bs

/-- Latched nibbles taken in strict high and low pairs (R55): the byte, and its mode bit. -/
def pairedBytes : List Byte → List (Byte × Byte)
  | hi :: lo :: rest => ((hi &&& 0xF0) ||| (lo >>> 4), hi &&& 0x01) :: pairedBytes rest
  | _ => []

/-! ## States after an operation -/

/-- `s` after operation `op` has ended OK with Control State `c`, `n` writes and the events `es` (R100): every field not
named is as in `s`. -/
def State.completed (s : State) (op : Byte) (c : ControlState) (es : List Event) (n : Nat) (sync : Sync)
    (uninit : Bool) : State :=
  { s with
    ctl       := c
    phase     := .idle
    rsp       := ⟨0, 0, 0⟩
    trace     := s.trace ++ es ++ [.ended op 0]
    sync      := sync
    uninitUse := uninit
    expander  := latchAfter s.expander es
    answers   := s.answers.drop n
    draws     := s.draws + n }

/-- `s` after operation `op` was aborted at its write number `m`, counted from 0, of byte `v` (R201 to R203): every field
not named is as in `s`, and the expander's latch holds `latch`. -/
def State.aborted (s : State) (op : Byte) (c : ControlState) (es : List Event) (m : Nat) (v : Byte) (uninit : Bool)
    (latch : Byte) : State :=
  { s with
    ctl       := c
    phase     := .idle
    rsp       := ⟨1, BitVec.ofNat 8 (min (m + 1) 255), v⟩
    trace     := s.trace ++ cutAtWrite m es ++ [.ended op 1]
    sync      := .unknown
    uninitUse := uninit
    expander  := latch
    answers   := s.answers.drop (m + 1)
    draws     := s.draws + (m + 1) }

/-- `s` after a refused request with opcode `op` (R204): every field not named is as in `s`. -/
def State.refusedWith (s : State) (op : Byte) : State :=
  { s with
    phase       := .idle
    rsp         := ⟨2, 0, 0⟩
    trace       := s.trace ++ [.ended op 2]
    refusedMark := true }

/-- `UNINIT_USE` after an accepted operation other than INIT (R35). -/
def State.uninitAfter (s : State) : Bool := s.uninitUse || s.sync != .synced

/-- Operations one after the other, stopping where one does not answer a next state. -/
def execAll : List Instr → State → Option State
  | [], s => some s
  | i :: is, s =>
    match exec i s with
    | .next t => execAll is t
    | .fault _ => none
    | .refused _ => none

/-- The two ways operation `i` with opcode `op` can go from `s` (R100, R201, R208), `es` being the events of its success,
`n` of them writes: every write answered `ok`, and it completes; or write number `m`, counted from 0, is the first answered
`fail`, and it aborts there, whatever the expander's latch then holds (R64). -/
def RunsAs (i : Instr) (s : State) (op : Byte) (c : ControlState) (es : List Event) (n : Nat) (okSync : Sync)
    (uninit : Bool) : Prop :=
  (writesOf es).length = n ∧
  (s.allOk n → exec i s = .next (s.completed op c es n okSync uninit)) ∧
  ∀ m v, (writesOf es)[m]? = some v → s.failsAt m →
    ∃ latch, exec i s = .next (s.aborted op c es m v uninit latch)

/-! ## Invariants -/

/-- The registers hold legal values: a legal configuration (R6), DF as the configuration gives it (R24), DM at its reset
value (R25), reserved bits of DC zero (R26, R28), a status other than 3 (R78), K and V zero unless a write failed (R32,
R200), and K at least 1 where one did. -/
def State.RegistersLegal (s : State) : Prop :=
  s.cfg.legal = true ∧
  s.ctl.df = (if 1 < s.cfg.lines.toNat then 0x08 else 0x00) |||
    (if s.cfg.font = 1 ∧ s.cfg.lines.toNat = 1 then 0x04 else 0x00) ∧
  s.ctl.dm = 0x02 ∧
  s.ctl.dc &&& 0xF8 = 0 ∧
  (s.rsp.status = 1 ∧ s.rsp.k ≠ 0 ∨ (s.rsp.status = 0 ∨ s.rsp.status = 2) ∧ s.rsp.k = 0 ∧ s.rsp.v = 0)

/-- Every bus write of the list goes to `a` (R50, R57) with RW clear (R75, R77). -/
def writesLegal (a : BusAddr) : List Event → Prop
  | [] => True
  | .write b v _ :: es => b = a ∧ v &&& 0x02 = 0 ∧ writesLegal a es
  | .wait _ :: es => writesLegal a es
  | .ended _ _ :: es => writesLegal a es

/-- The trace writes only `cfg.ADDR`, never sets RW, and agrees with the response and the ghost mark: STATUS is the last
END's (R32), and REFUSED_MARK is set exactly where some END says REFUSED (R35). While BUSY the writes still to do never
set RW either. -/
def State.TraceAgrees (s : State) : Prop :=
  writesLegal s.cfg.addr s.trace ∧
  s.rsp.status = lastStatus s.trace 0 ∧
  (s.refusedMark = true ↔ ∃ op, Event.ended op 2 ∈ s.trace) ∧
  (∀ run, s.phase = .busy run → ∀ v, Action.write v ∈ run.todo → v &&& 0x02 = 0)

/-- The sequencer's position is the count of events the operation in progress has produced, and its write counter the count
of their writes; between operations nothing follows the last END (R21, R36, R100). -/
def State.PositionAgrees (s : State) : Prop :=
  match s.phase with
  | .idle => sinceEnd s.trace = []
  | .busy run => run.pos = (sinceEnd s.trace).length ∧ run.k = (writesOf (sinceEnd s.trace)).length

/-! ## Launch premises and the standing of claims -/

/-- What the platform and the host promise; no part of the block. -/
structure Launch where
  /-- Microseconds between power-up and the first INIT (R242, R243). -/
  waitedMicros  : Nat
  /-- No other agent writes `cfg.ADDR` (R58). -/
  soleWriter    : Bool
  /-- Every request passes one lock (R61, R248). -/
  oneLock       : Bool
  /-- `HANDSHAKE_OK`: the controller takes the 0x33, 0x32 handshake at the minimum waits (93 U10; R253). -/
  handshakeOk   : Bool
deriving DecidableEq, Repr

/-- The launch premises hold (R58, R243, R248; 93 U10, U14). Log 12, log 13. -/
def Launch.holds (l : Launch) : Prop :=
  Config.tPowerup ≤ l.waitedMicros ∧ l.soleWriter = true ∧ l.oneLock = true ∧ l.handshakeOk = true

/-- The premise of a claim about any run (R35). -/
def State.noRefusal (s : State) : Prop := s.refusedMark = false

/-- The premise of a claim about the display: the launch premises, no use before INIT (R35), and a synchronised controller
(R33, R244). -/
def State.displayClaim (l : Launch) (s : State) : Prop :=
  l.holds ∧ s.uninitUse = false ∧ s.sync = .synced

end Sys2Proof.Machine
end

