-- ==== Sys2Proof/Certificates/Slice0/Obligations.lean ====
section
/-! DEFINITION. The statements for the provers, in the order of OBLIGATIONS.json. Each docstring names the rules of spec/ the
statement formalises. "Log n" marks a clause that is the model's own choice. -/
section
open Sys2Proof Sys2Proof.Machine

/-! ## Construction and reset -/

/-- R38: what every piece of state holds after construction with a legal configuration. The expander's latch, which R38
leaves unspecified, is not named. -/
def Obligations.ConstructionGivesResetValues : Prop :=
  ∀ addr cols lines font : Nat, addr ≤ 127 → 1 ≤ cols → cols ≤ 255 → 1 ≤ lines → lines ≤ 4 → font ≤ 1 →
    ∃ s, construct addr cols lines font = some s ∧
      s.cfg.addr.toNat = addr ∧ s.cfg.cols.toNat = cols ∧ s.cfg.lines.toNat = lines ∧ s.cfg.font.toNat = font ∧
      s.ctl.df = (if 1 < lines then 0x08 else 0x00) ||| (if font = 1 ∧ lines = 1 then 0x04 else 0x00) ∧
      s.ctl.dm = 0x02 ∧ s.ctl.dc = 0x04 ∧ s.ctl.bl = 0 ∧ s.phase = .idle ∧ s.rsp = ⟨0, 0, 0⟩ ∧ s.trace = [] ∧
      s.sync = .powerup ∧ s.uninitUse = false ∧ s.refusedMark = false

/-- R6: the legal configurations are those of its ranges, every other is refused, and the 5x10 font is honoured only with
one line. -/
def Obligations.ConstructionRefusesIllegalConfigurations : Prop :=
  (∀ addr cols lines font : Nat,
    (construct addr cols lines font).isSome = true ↔
      addr ≤ 127 ∧ (1 ≤ cols ∧ cols ≤ 255) ∧ (1 ≤ lines ∧ lines ≤ 4) ∧ (font = 0 ∨ font = 1)) ∧
  ∀ addr cols lines font s, construct addr cols lines font = some s →
    s.cfg.legal = true ∧ (s.ctl.df &&& 0x04 = 0x04 ↔ font = 1 ∧ lines = 1)

/-- DF is the function of the configuration that R24 gives, and no step writes it. That it has one of three values is the
sentence of R24 the spec marks as derived from its table. -/
def Obligations.FunctionSetRegisterComesFromConfiguration : Prop :=
  (∀ c : DeviceConfig,
    (State.constructed c).ctl.df =
      (if 1 < c.lines.toNat then 0x08 else 0x00) ||| (if c.font = 1 ∧ c.lines.toNat = 1 then 0x04 else 0x00) ∧
    ((State.constructed c).ctl.df = 0x00 ∨ (State.constructed c).ctl.df = 0x04 ∨ (State.constructed c).ctl.df = 0x08)) ∧
  ∀ s t, step s = .next t → t.ctl.df = s.ctl.df

/-- The invariants below hold of every block just constructed with a legal configuration, and of State.reset, whose
configuration is the model's choice (R38, R240; log 2). -/
def Obligations.ResetMeetsTheInvariants : Prop :=
  (∀ c : DeviceConfig, c.legal = true →
    (State.constructed c).RegistersLegal ∧ (State.constructed c).TraceAgrees ∧ (State.constructed c).PositionAgrees) ∧
  State.reset.RegistersLegal ∧ State.reset.TraceAgrees ∧ State.reset.PositionAgrees

/-! ## Invariants of every step -/

/-- R6, R24, R25, R26, R28, R32, R78: the registers keep legal values; reserved bits stay 0. -/
def Obligations.StepKeepsRegistersLegal : Prop :=
  ∀ s t, s.RegistersLegal → step s = .next t → t.RegistersLegal

/-- R32, R35, R50, R77: the trace keeps writing only to the configured address with RW clear, and the response and
REFUSED_MARK keep saying what the trace says. -/
def Obligations.StepKeepsTraceAgreeing : Prop :=
  ∀ s t, s.TraceAgrees → step s = .next t → t.TraceAgrees

/-- R21, R100: the position and the write counter count the events of the operation in progress: acceptance sets both to 0,
every event keeps them so, and so does every step. A step from a BUSY state is by log 7. -/
def Obligations.SequencerPositionCountsEvents : Prop :=
  (∀ (s : State) op p, s.phase = .idle → s.PositionAgrees → (s.accept op p).PositionAgrees) ∧
  (∀ s : State, s.PositionAgrees → (tick s).PositionAgrees) ∧
  ∀ s t, s.PositionAgrees → step s = .next t → t.PositionAgrees

/-! ## The step -/

/-- R71: an IDLE block takes the request at the port, and a well-formed one runs as its operation. The list of requests
and the size of a step are the model's choices (log 1, log 3). -/
def Obligations.StepRunsTheDecodedOperation : Prop :=
  ∀ s r rest i, s.cfg.legal = true → s.rsp.status ≠ 3 → s.phase = .idle → s.requests = r :: rest →
    decode r = .ok i → step s = exec i { s with requests := rest }

/-- R204: a request that does not decode is consumed and ends REFUSED: no `W`, no `T`, no Control State and no `SYNC`
changed, REFUSED_MARK set, its own OP in the END. A payload beside another opcode is among these by log 6. -/
def Obligations.StepRefusesWhatDoesNotDecode : Prop :=
  ∀ s r rest e, s.cfg.legal = true → s.rsp.status ≠ 3 → s.phase = .idle → s.requests = r :: rest →
    decode r = .error e → step s = .next (State.refusedWith { s with requests := rest } r.op)

/-- R73, R204: an operation whose operands break a constraint of R73 ends REFUSED in `exec` too. -/
def Obligations.IllFormedOperationEndsRefused : Prop :=
  ∀ i s, s.phase = .idle → i.wellFormed = false → exec i s = .next (s.refusedWith i.opcode)

/-- R216: without a request an IDLE block holds its state. R36 (by log 7): an operation in progress runs to its END before
another request is taken, in one step, and while BUSY `exec` takes none. -/
def Obligations.StepHoldsWhenIdleAndFinishesWhenBusy : Prop :=
  (∀ s, s.cfg.legal = true → s.rsp.status ≠ 3 → s.phase = .idle → s.requests = [] → step s = .next s) ∧
  (∀ s run, s.cfg.legal = true → s.rsp.status ≠ 3 → s.phase = .busy run →
    ∃ t st, step s = .next t ∧ t.phase = .idle ∧ t.requests = s.requests ∧ t.ctl = s.ctl ∧ t.rsp.status = st ∧
      ∃ es, busEvents es = es ∧ t.trace = s.trace ++ es ++ [.ended run.op st]) ∧
  ∀ i s run, s.phase = .busy run → exec i s = .refused .requestWhileBusy

/-- R6, R78 (by log 8): `step` stops exactly on a state that is no state of a block, and never refuses. -/
def Obligations.StepStopsOnlyOnImpossibleStates : Prop :=
  ∀ s, ((∃ f, step s = .fault f) ↔ s.cfg.legal = false ∨ s.rsp.status = 3) ∧ ∀ r, step s ≠ .refused r

/-! ## The operations: result, frame, completion and abort -/

/-- R102, R103: INIT. -/
def Obligations.InitRuns : Prop :=
  encode .init = ⟨0x010000, []⟩ ∧ ∀ s : State, s.phase = .idle →
    RunsAs .init s 0x01 s.ctl
      (byteEvents s.cfg.addr s.ctl.bl 0 0x33 ++ byteEvents s.cfg.addr s.ctl.bl 0 0x32
        ++ byteEvents s.cfg.addr s.ctl.bl 0 (0x04 ||| s.ctl.dm) ++ byteEvents s.cfg.addr s.ctl.bl 0 (0x08 ||| s.ctl.dc)
        ++ byteEvents s.cfg.addr s.ctl.bl 0 (0x20 ||| s.ctl.df) ++ byteEvents s.cfg.addr s.ctl.bl 0 0x01
        ++ [.wait .initSettle])
      36 .synced s.uninitUse

/-- R106: WRITE_LINE, whatever the payload's length against `cfg.COLS`; refused where the payload does not hold A bytes. -/
def Obligations.WriteLineRuns : Prop :=
  (∀ n p, encode (.writeLine n p) = ⟨(0x02 : Byte) ++ n ++ (0x00 : Byte), p⟩) ∧
  (∀ (s : State) n p, s.phase = .idle → p.length = n.toNat →
    RunsAs (.writeLine n p) s 0x02 s.ctl
      ((p.take s.cfg.cols.toNat ++ List.replicate (s.cfg.cols.toNat - p.length) 0x20).flatMap
        fun b => byteEvents s.cfg.addr s.ctl.bl 1 b)
      (6 * s.cfg.cols.toNat) s.sync s.uninitAfter) ∧
  ∀ (s : State) n p, s.phase = .idle → p.length ≠ n.toNat → exec (.writeLine n p) s = .next (s.refusedWith 0x02)

/-- R107, R108, R109: SET_CURSOR, at every column and row. -/
def Obligations.SetCursorRuns : Prop :=
  (∀ col row, encode (.setCursor col row) = ⟨(0x03 : Byte) ++ col ++ row, []⟩) ∧
  ∀ (s : State) col row, s.phase = .idle → s.cfg.legal = true →
    RunsAs (.setCursor col row) s 0x03 s.ctl
      (byteEvents s.cfg.addr s.ctl.bl 0
        (BitVec.ofNat 8 (0x80 ||| (col.toNat + [0x00, 0x40, 0x14, 0x54].getD
          (if row.toNat ≥ s.cfg.lines.toNat then s.cfg.lines.toNat - 1 else row.toNat) 0))))
      6 s.sync s.uninitAfter

/-- R110, R111: CLEAR and HOME. -/
def Obligations.ClearAndHomeRun : Prop :=
  encode .clear = ⟨0x040000, []⟩ ∧ encode .home = ⟨0x050000, []⟩ ∧
  ∀ s : State, s.phase = .idle →
    RunsAs .clear s 0x04 s.ctl (byteEvents s.cfg.addr s.ctl.bl 0 0x01) 6 s.sync s.uninitAfter ∧
    RunsAs .home s 0x05 s.ctl (byteEvents s.cfg.addr s.ctl.bl 0 0x02) 6 s.sync s.uninitAfter

/-- R112, R113, R120: SET_BACKLIGHT; the six writes carry the new BL; an A outside 0 and 1 is refused. -/
def Obligations.SetBacklightRuns : Prop :=
  (∀ on, encode (.setBacklight on) = ⟨(0x06 : Byte) ++ on ++ (0x00 : Byte), []⟩) ∧
  (∀ (s : State) on, s.phase = .idle → 1 < on.toNat → exec (.setBacklight on) s = .next (s.refusedWith 0x06)) ∧
  ∀ s : State, s.phase = .idle →
    RunsAs (.setBacklight 1) s 0x06 { s.ctl with bl := 1 } (byteEvents s.cfg.addr 1 0 (0x08 ||| s.ctl.dc)) 6
      s.sync s.uninitAfter ∧
    RunsAs (.setBacklight 0) s 0x06 { s.ctl with bl := 0 } (byteEvents s.cfg.addr 0 0 (0x08 ||| s.ctl.dc)) 6
      s.sync s.uninitAfter

/-- R114, R115, R120: DISPLAY and NO_DISPLAY. -/
def Obligations.DisplayTogglesRun : Prop :=
  encode .display = ⟨0x080000, []⟩ ∧ encode .noDisplay = ⟨0x090000, []⟩ ∧
  ∀ s : State, s.phase = .idle →
    RunsAs .display s 0x08 { s.ctl with dc := s.ctl.dc ||| 0x04 }
      (byteEvents s.cfg.addr s.ctl.bl 0 (0x08 ||| (s.ctl.dc ||| 0x04))) 6 s.sync s.uninitAfter ∧
    RunsAs .noDisplay s 0x09 { s.ctl with dc := s.ctl.dc &&& 0xFB }
      (byteEvents s.cfg.addr s.ctl.bl 0 (0x08 ||| (s.ctl.dc &&& 0xFB))) 6 s.sync s.uninitAfter

/-- R116, R117, R120: CURSOR and NO_CURSOR. -/
def Obligations.CursorTogglesRun : Prop :=
  encode .cursor = ⟨0x0A0000, []⟩ ∧ encode .noCursor = ⟨0x0B0000, []⟩ ∧
  ∀ s : State, s.phase = .idle →
    RunsAs .cursor s 0x0A { s.ctl with dc := s.ctl.dc ||| 0x02 }
      (byteEvents s.cfg.addr s.ctl.bl 0 (0x08 ||| (s.ctl.dc ||| 0x02))) 6 s.sync s.uninitAfter ∧
    RunsAs .noCursor s 0x0B { s.ctl with dc := s.ctl.dc &&& 0xFD }
      (byteEvents s.cfg.addr s.ctl.bl 0 (0x08 ||| (s.ctl.dc &&& 0xFD))) 6 s.sync s.uninitAfter

/-- R118, R119, R120: BLINK and NO_BLINK. -/
def Obligations.BlinkTogglesRun : Prop :=
  encode .blink = ⟨0x0C0000, []⟩ ∧ encode .noBlink = ⟨0x0D0000, []⟩ ∧
  ∀ s : State, s.phase = .idle →
    RunsAs .blink s 0x0C { s.ctl with dc := s.ctl.dc ||| 0x01 }
      (byteEvents s.cfg.addr s.ctl.bl 0 (0x08 ||| (s.ctl.dc ||| 0x01))) 6 s.sync s.uninitAfter ∧
    RunsAs .noBlink s 0x0D { s.ctl with dc := s.ctl.dc &&& 0xFE }
      (byteEvents s.cfg.addr s.ctl.bl 0 (0x08 ||| (s.ctl.dc &&& 0xFE))) 6 s.sync s.uninitAfter

/-- R143: SEND_CMD, for every byte. -/
def Obligations.SendCmdRuns : Prop :=
  (∀ v, encode (.sendCmd v) = ⟨(0x10 : Byte) ++ v ++ (0x00 : Byte), []⟩) ∧
  ∀ (s : State) v, s.phase = .idle →
    RunsAs (.sendCmd v) s 0x10 s.ctl (byteEvents s.cfg.addr s.ctl.bl 0 v) 6 s.sync s.uninitAfter

/-- R144: SEND_DATA, for every byte. -/
def Obligations.SendDataRuns : Prop :=
  (∀ v, encode (.sendData v) = ⟨(0x11 : Byte) ++ v ++ (0x00 : Byte), []⟩) ∧
  ∀ (s : State) v, s.phase = .idle →
    RunsAs (.sendData v) s 0x11 s.ctl (byteEvents s.cfg.addr s.ctl.bl 1 v) 6 s.sync s.uninitAfter

/-- R161, R166: PULSE, for every composed byte with EN and RW clear; BL is not read, and `SYNC` is UNKNOWN after it;
refused where EN or RW is set. -/
def Obligations.PulseRuns : Prop :=
  (∀ x, encode (.pulse x) = ⟨(0x12 : Byte) ++ x ++ (0x00 : Byte), []⟩) ∧
  (∀ (s : State) x, s.phase = .idle → x &&& 0x06 = 0 →
    RunsAs (.pulse x) s 0x12 s.ctl (pulseEvents s.cfg.addr x) 3 .unknown s.uninitAfter) ∧
  ∀ (s : State) x, s.phase = .idle → x &&& 0x06 ≠ 0 → exec (.pulse x) s = .next (s.refusedWith 0x12)

/-! ## What holds of every operation -/

/-- R71, R208: every operation ends, whatever the answers: it appends its events and one END, reports that END's status and
no other, and the block is IDLE. REFUSED means no event, and TRANSPORT_FAILURE that some write failed. -/
def Obligations.EveryOperationEndsOnce : Prop :=
  ∀ i s, s.phase = .idle →
    ∃ t es st, exec i s = .next t ∧ t.phase = .idle ∧ busEvents es = es ∧
      t.trace = s.trace ++ es ++ [.ended i.opcode st] ∧ t.rsp.status = st ∧ st ≠ 3 ∧
      (st = 2 ↔ i.wellFormed = false) ∧ (st = 2 → es = []) ∧ (st = 1 ↔ ∃ a v, Event.write a v .fail ∈ es)

/-- A write answered `fail` ends the operation with TRANSPORT_FAILURE; it is the last `W` or `T` event, and the response
names its number, saturated, and its byte (R201). That the number is at most 1530 is the sentence of R201 the spec marks as
derived from R106. -/
def Obligations.FailureIsTheLastEvent : Prop :=
  ∀ i s t, exec i s = .next t → (∃ a u, Event.write a u .fail ∈ newEvents s t) →
    t.rsp.status = 1 ∧ ∃ es v, newEvents s t = es ++ [.write s.cfg.addr v .fail, .ended i.opcode 1] ∧
      (∀ a u, Event.write a u .fail ∉ es) ∧ (∀ op st, Event.ended op st ∉ es) ∧
      t.rsp.k = BitVec.ofNat 8 (min ((writesOf es).length + 1) 255) ∧ t.rsp.v = v ∧
      (writesOf es).length + 1 ≤ 1530

/-- R202: a failed toggle or SET_BACKLIGHT keeps its change. -/
def Obligations.FailureKeepsControlState : Prop :=
  ∀ i s t, exec i s = .next t → t.rsp.status = 1 → t.ctl = ctlAfter i s.ctl

/-- R22, R25, R26, R27 and the access matrix of 10_state.md: who writes which register. -/
def Obligations.RegistersWrittenOnlyByTheirOperations : Prop :=
  ∀ i s t, exec i s = .next t →
    t.cfg = s.cfg ∧ t.ctl.df = s.ctl.df ∧ t.ctl.dm = s.ctl.dm ∧ t.requests = s.requests ∧
    (t.ctl.dc ≠ s.ctl.dc → i ∈ [.display, .noDisplay, .cursor, .noCursor, .blink, .noBlink]) ∧
    (t.ctl.bl ≠ s.ctl.bl → i = .setBacklight 0 ∨ i = .setBacklight 1)

/-- The toggle law, whatever the transport answers (R121, which the spec marks as derived from R114 to R119). -/
def Obligations.ToggleLaw : Prop :=
  ∀ s t,
    (exec .display s = .next t → t.ctl = { s.ctl with dc := s.ctl.dc ||| 0x04 }) ∧
    (exec .noDisplay s = .next t → t.ctl = { s.ctl with dc := s.ctl.dc &&& 0xFB }) ∧
    (exec .cursor s = .next t → t.ctl = { s.ctl with dc := s.ctl.dc ||| 0x02 }) ∧
    (exec .noCursor s = .next t → t.ctl = { s.ctl with dc := s.ctl.dc &&& 0xFD }) ∧
    (exec .blink s = .next t → t.ctl = { s.ctl with dc := s.ctl.dc ||| 0x01 }) ∧
    (exec .noBlink s = .next t → t.ctl = { s.ctl with dc := s.ctl.dc &&& 0xFE })

/-- R31: the trace is append-only, over a step and over one event. -/
def Obligations.TraceIsAppendOnly : Prop :=
  (∀ s t, step s = .next t → s.trace <+: t.trace) ∧ ∀ s, s.trace <+: (tick s).trace

/-- R32: the response registers are written at every END and at no other time, event by event. -/
def Obligations.ResponseWrittenAtEndOnly : Prop :=
  (∀ s run, s.phase = .busy run →
    (∃ run', (tick s).phase = .busy run' ∧ (tick s).rsp = s.rsp ∧
      ∃ e, (∀ op st, e ≠ .ended op st) ∧ (tick s).trace = s.trace ++ [e]) ∨
    ((tick s).phase = .idle ∧ ∃ es st, (tick s).trace = s.trace ++ es ++ [.ended run.op st] ∧ busEvents es = es ∧
      (tick s).rsp.status = st ∧ (st = 0 ∨ st = 1))) ∧
  ∀ s : State, s.phase = .idle → tick s = s

/-- R34: the transitions of `SYNC`, a refused request and a CLEAR changing nothing. -/
def Obligations.SyncTransitions : Prop :=
  (∀ c, (State.constructed c).sync = .powerup) ∧
  (∀ i s t, exec i s = .next t →
    t.sync =
      if t.rsp.status = 1 then .unknown
      else if t.rsp.status = 0 ∧ i = .init then .synced
      else if t.rsp.status = 0 ∧ i.opcode = 0x12 then .unknown
      else s.sync) ∧
  ∀ s r rest e t, s.cfg.legal = true → s.rsp.status ≠ 3 → s.phase = .idle → s.requests = r :: rest →
    decode r = .error e → step s = .next t → t.sync = s.sync

/-- R35: when `UNINIT_USE` and `REFUSED_MARK` are set, and that nothing clears them. -/
def Obligations.GhostMarksAreSticky : Prop :=
  (∀ c, (State.constructed c).uninitUse = false ∧ (State.constructed c).refusedMark = false) ∧
  (∀ i s t, exec i s = .next t →
    t.uninitUse = (s.uninitUse || (i.wellFormed && i != .init && s.sync != .synced)) ∧
    t.refusedMark = (s.refusedMark || !i.wellFormed)) ∧
  (∀ s r rest e t, s.cfg.legal = true → s.rsp.status ≠ 3 → s.phase = .idle → s.requests = r :: rest →
    decode r = .error e → step s = .next t → t.uninitUse = s.uninitUse ∧ t.refusedMark = true) ∧
  ∀ s t, step s = .next t →
    (s.uninitUse = true → t.uninitUse = true) ∧ (s.refusedMark = true → t.refusedMark = true)

/-- R33, R206: no operation reads the ghost state: with other ghost values it produces the same events and leaves the same
block. -/
def Obligations.GhostStateChangesNoEvent : Prop :=
  ∀ i s t y u r, exec i s = .next t →
    ∃ t', exec i { s with sync := y, uninitUse := u, refusedMark := r } = .next t' ∧
      t = { t' with sync := t.sync, uninitUse := t.uninitUse, refusedMark := t.refusedMark }

/-- R27: every byte an operation other than PULSE writes carries the backlight bit of its BL, SET_BACKLIGHT's the new one. -/
def Obligations.EveryByteCarriesTheBacklightBit : Prop :=
  ∀ i s t, exec i s = .next t → i.opcode ≠ 0x12 → ∀ v ∈ writesOf (newEvents s t), v &&& 0x08 = blv t.ctl.bl

/-- R76, R77, R162: the writes of an operation are those of whole pulses of composed bytes, cut short where it failed. -/
def Obligations.WritesFormEnablePulses : Prop :=
  ∀ i s t, exec i s = .next t →
    ∃ (xs : List Byte) (m : Nat), (∀ x ∈ xs, x &&& 0x06 = 0) ∧
      writesOf (newEvents s t) = (xs.flatMap fun x => [x, x ||| 0x04, x]).take m ∧
      (t.rsp.status = 0 → writesOf (newEvents s t) = xs.flatMap fun x => [x, x ||| 0x04, x])

/-- R54, R56, R82, R141: a controller that latches the data lines at each falling edge of EN and takes nibbles in pairs
receives exactly the bytes the operation hands to the Byte Sender, in order, each with its mode bit. -/
def Obligations.WiresDeliverTheBytesSent : Prop :=
  ∀ i s, s.phase = .idle → i.wellFormed = true → i.opcode ≠ 0x12 → s.expander &&& 0x04 = 0 →
    s.allOk (writesOf (successEvents i s)).length →
    ∃ t, exec i s = .next t ∧ t.rsp.status = 0 ∧
      pairedBytes (latchedAtFallingEdge s.expander (writesOf (newEvents s t))) = bytesSent i s.cfg (ctlAfter i s.ctl)

/-- R254: the least time each operation's waits take, in microseconds. -/
def Obligations.DurationLowerBounds : Prop :=
  ∀ i s, s.phase = .idle → i.wellFormed = true → s.allOk (writesOf (successEvents i s)).length →
    ∃ t, exec i s = .next t ∧
      minDurationMicros (newEvents s t) =
        match i with
        | .init => 18500
        | .writeLine _ _ => 3000 * s.cfg.cols.toNat
        | .pulse _ => 1500
        | .setCursor _ _ | .clear | .home | .setBacklight _ | .display | .noDisplay | .cursor | .noCursor | .blink
        | .noBlink | .sendCmd _ | .sendData _ => 3000

/-! ## Operations beside each other -/

/-- R86: WRITE_LINE is the SEND_DATA operations of the padded line, but for their ENDs. -/
def Obligations.WriteLineEqualsSendDataOfTheLine : Prop :=
  ∀ (s : State) n p, s.phase = .idle → s.cfg.legal = true → p.length = n.toNat → s.allOk (6 * s.cfg.cols.toNat) →
    ∃ t u, exec (.writeLine n p) s = .next t ∧
      execAll ((lineOf s.cfg.cols.toNat p).map .sendData) s = some u ∧
      busEvents (newEvents s t) = busEvents (newEvents s u) ∧ t = { u with trace := t.trace }

/-- R143: `SEND_CMD 0x01` produces the same trace as CLEAR, whatever the transport answers, but for the opcode of the END. -/
def Obligations.SendCmdOneEqualsClear : Prop :=
  ∀ s : State, s.phase = .idle →
    ∃ t u, exec (.sendCmd 0x01) s = .next t ∧ exec .clear s = .next u ∧
      busEvents (newEvents s t) = busEvents (newEvents s u) ∧ t = { u with trace := t.trace }

/-- R166: two PULSE operations with the high then the low composed byte of a value make the `W` and `T` events of one
SendByte. -/
def Obligations.TwoPulsesEqualOneSendByte : Prop :=
  ∀ (s : State) v, s.phase = .idle → s.allOk 6 →
    (∃ t u, exec (.sendCmd v) s = .next t ∧
      execAll [.pulse (highComposed 0 v s.ctl.bl), .pulse (lowComposed 0 v s.ctl.bl)] s = some u ∧
      busEvents (newEvents s t) = busEvents (newEvents s u)) ∧
    ∃ t u, exec (.sendData v) s = .next t ∧
      execAll [.pulse (highComposed 1 v s.ctl.bl), .pulse (lowComposed 1 v s.ctl.bl)] s = some u ∧
      busEvents (newEvents s t) = busEvents (newEvents s u)

/-- R243, R244, R245: a successful INIT synchronises from any state, and successful operations other than PULSE keep it so
and never set `UNINIT_USE`; under the launch premises (log 12, log 13) a claim about the display then has its premise. -/
def Obligations.InitThenOperationsStaySynchronised : Prop :=
  ∀ (is : List Instr) (s : State), s.phase = .idle → (∀ i ∈ is, i.wellFormed = true ∧ i.opcode ≠ 0x12) →
    s.allOk (36 + (is.map fun i => (writesOf (successEvents i s)).length).sum) →
    ∃ t, execAll (.init :: is) s = some t ∧ t.sync = .synced ∧ t.uninitUse = s.uninitUse ∧ t.rsp = ⟨0, 0, 0⟩ ∧
      ∀ l : Launch, l.holds → s.uninitUse = false → t.displayClaim l

/-! ## Operands -/

/-- R104: the line function. -/
def Obligations.LineIsPaddedOrCutToWidth : Prop :=
  ∀ (cols : Nat) (p : List Byte),
    (lineOf cols p).length = cols ∧
    (∀ i, i < min p.length cols → (lineOf cols p)[i]? = p[i]?) ∧
    ∀ i, p.length ≤ i → i < cols → (lineOf cols p)[i]? = some 0x20

/-- The row clamp (R107). That the clamped row is at most 3, so that the lookup never leaves the table, is the sentence of
R107 the spec marks as derived from R6. -/
def Obligations.RowIsClamped : Prop :=
  ∀ (c : DeviceConfig) (row : Byte), c.legal = true →
    clampRow c.lines.toNat row.toNat =
      (if row.toNat ≥ c.lines.toNat then c.lines.toNat - 1 else row.toNat) ∧
    clampRow c.lines.toNat row.toNat ≤ 3 ∧
    rowOffset (clampRow c.lines.toNat row.toNat) = [0x00, 0x40, 0x14, 0x54].getD (clampRow c.lines.toNat row.toNat) 0

/-- R108, R145: the byte sent is the low 8 bits of the unbounded sum, at most 0x153 before the OR, and the composed bytes
are what the Byte Sender's masks make of that sum. -/
def Obligations.CursorSumIsCutByTheMasks : Prop :=
  ∀ (c : DeviceConfig) (k : ControlState) (col row : Byte), c.legal = true →
    col.toNat + rowOffset (clampRow c.lines.toNat row.toNat) ≤ 0x153 ∧
    (cursorCommand c col row).toNat = cursorSum c col row % 256 ∧
    hiByte k (cursorCommand c col row) .command = BitVec.ofNat 8 (cursorSum c col row &&& 0xF0) ||| blv k.bl ∧
    loByte k (cursorCommand c col row) .command = BitVec.ofNat 8 ((cursorSum c col row <<< 4) &&& 0xF0) ||| blv k.bl

/-- The nibble law's two formulas (R140, R141). What follows from them, on the nibbles and on bits 2:1 and that the byte is
sent intact, the spec marks as derived from R140 and its pseudocode. -/
def Obligations.NibbleLaw : Prop :=
  ∀ (k : ControlState) (b : Byte) (m : SendMode),
    hiByte k b m = highComposed (match m with | .command => 0 | .data => 1) b k.bl ∧
    loByte k b m = lowComposed (match m with | .command => 0 | .data => 1) b k.bl ∧
    (hiByte k b m).extractLsb' 4 4 = b.extractLsb' 4 4 ∧ (loByte k b m).extractLsb' 4 4 = b.extractLsb' 0 4 ∧
    (hiByte k b m) &&& 0x06 = 0 ∧ (loByte k b m) &&& 0x06 = 0 ∧
    (hiByte k b m) &&& 0x0F = (loByte k b m) &&& 0x0F ∧
    b = (hiByte k b m &&& 0xF0) ||| (loByte k b m >>> 4)

/-- R78: the response word's fields. -/
def Obligations.ResponseWordFields : Prop :=
  ∀ r : Response, r.word.extractLsb' 16 2 = r.status ∧ r.word.extractLsb' 8 8 = r.k ∧ r.word.extractLsb' 0 8 = r.v

/-! ## Encodings -/

/-- R70, R72, R73: decoding an encoded well-formed operation gives it back, with every operand. -/
def Obligations.DecodeOfEncode : Prop :=
  ∀ i : Instr, i.wellFormed = true → decode (encode i) = .ok i

/-- R70, R72, R73: what decodes is well formed and is the encoding of what it decodes to, so each request has one meaning. -/
def Obligations.EncodeOfDecode : Prop :=
  ∀ r i, decode r = .ok i → i.wellFormed = true ∧ encode i = r

/-- R72, R74: the reserved opcodes are exactly those R74 lists, and a reserved opcode is refused whatever its other
fields. -/
def Obligations.ReservedOpcodesAreRefused : Prop :=
  (∀ r : Request, decode r = .error .reservedOpcode ↔
    r.op = 0x00 ∨ r.op = 0x07 ∨ r.op = 0x0E ∨ r.op = 0x0F ∨ 0x13 ≤ r.op.toNat) ∧
  ∀ s r rest, s.cfg.legal = true → s.rsp.status ≠ 3 → s.phase = .idle → s.requests = r :: rest →
    (r.op = 0x00 ∨ r.op = 0x07 ∨ r.op = 0x0E ∨ r.op = 0x0F ∨ 0x13 ≤ r.op.toNat) →
    step s = .next (State.refusedWith { s with requests := rest } r.op)

/-- R73, R87 (a payload beside another opcode by log 6): the decoder takes exactly the words that match a row of the opcode
table, with a payload of A bytes for WRITE_LINE and none elsewhere. -/
def Obligations.DecodeTakesExactlyTheTableRows : Prop :=
  ∀ r : Request, (∃ i, decode r = .ok i) ↔
    (∃ t ∈ tableRows, t.covers r.word = true) ∧
      r.payload.length = if r.op = 0x02 then r.a.toNat else 0

/-- No word matches two rows of the opcode table (R87). -/
def Obligations.TableRowsAreDisjoint : Prop :=
  tableRows.Pairwise fun t u => ∀ w : ReqWord, ¬ (t.covers w = true ∧ u.covers w = true)

/-- R83: the length of a request in bits is known from OP and A alone. -/
def Obligations.RequestLengthFromOpAndA : Prop :=
  (∀ r i, decode r = .ok i → 24 + 8 * r.payload.length = requestBits r.op r.a) ∧
  ∀ op a : Byte, requestBits op a = if op = 0x02 then 24 + 8 * a.toNat else 24

/-- Words written out from the rows of spec/opcode_table.json, one for each family and more. -/
def Obligations.WrittenOutWordsDecode : Prop :=
  decode ⟨0b000000010000000000000000, []⟩ = .ok .init ∧
  decode ⟨0b000000100000001000000000, [0x48, 0x69]⟩ = .ok (.writeLine 2 [0x48, 0x69]) ∧
  decode ⟨0b000000110001010000000001, []⟩ = .ok (.setCursor 20 1) ∧
  decode ⟨0b000001100000000100000000, []⟩ = .ok (.setBacklight 1) ∧
  decode ⟨0b000010110000000000000000, []⟩ = .ok .noCursor ∧
  decode ⟨0b000100000010100000000000, []⟩ = .ok (.sendCmd 0x28) ∧
  decode ⟨0b000100010100000100000000, []⟩ = .ok (.sendData 0x41) ∧
  decode ⟨0b000100100011100000000000, []⟩ = .ok (.pulse 0x38) ∧
  decode ⟨0b000100100000010000000000, []⟩ = .error .controlBits

/-- R85: the pseudo-instructions are words of SET_BACKLIGHT. -/
def Obligations.PseudoInstructionsAssemble : Prop :=
  assemble "BACKLIGHT" = some ⟨0x060100, []⟩ ∧ assemble "NO_BACKLIGHT" = some ⟨0x060000, []⟩ ∧
  assemble "SET_BACKLIGHT 1" = assemble "BACKLIGHT" ∧ assemble "SET_BACKLIGHT 0" = assemble "NO_BACKLIGHT"

/-- R84: a quoted WRITE_LINE of characters of one byte each, none of them a quote (log 16), assembles with A the string's
length, and a string longer than 255 is refused. -/
def Obligations.AssemblerEncodesQuotedText : Prop :=
  ∀ cs : List Char, (∀ c ∈ cs, c.toNat ≤ 255 ∧ c ≠ '"') →
    assembleLine ("WRITE_LINE \"".toList ++ cs ++ ['"']) =
      if cs.length ≤ 255 then
        some (.writeLine (BitVec.ofNat 8 cs.length) (cs.map fun c => BitVec.ofNat 8 c.toNat))
      else none

end
end

