-- ==== Sys2Proof/Laws/Decode.lean ====
section
/-! SUPPORT. The fields of a request word, and the word of its fields. -/
namespace Sys2Proof

/-- Bit `i` of a word is a bit of the field it lies in (R70). -/
theorem getLsbD_mkWord (op a b : Byte) (i : Nat) :
    (mkWord op a b).getLsbD i =
      if i < 8 then b.getLsbD i else if i - 8 < 8 then a.getLsbD (i - 8) else op.getLsbD (i - 8 - 8) := by
  have : (mkWord op a b).getLsbD i = (op ++ a ++ b).getLsbD i := rfl
  rw [this, BitVec.getLsbD_append, BitVec.getLsbD_append]

@[simp] theorem op_mkWord (op a b : Byte) (p : List Byte) : (Request.mk (mkWord op a b) p).op = op := by
  refine BitVec.eq_of_getLsbD_eq fun i hi => ?_
  rw [Request.op, BitVec.getLsbD_extractLsb', getLsbD_mkWord]
  simp [hi, show ¬ 16 + i < 8 by omega, show ¬ 16 + i - 8 < 8 by omega, show 16 + i - 8 - 8 = i by omega]

@[simp] theorem a_mkWord (op a b : Byte) (p : List Byte) : (Request.mk (mkWord op a b) p).a = a := by
  refine BitVec.eq_of_getLsbD_eq fun i hi => ?_
  rw [Request.a, BitVec.getLsbD_extractLsb', getLsbD_mkWord]
  simp [hi, show 8 + i - 8 = i by omega]

@[simp] theorem b_mkWord (op a b : Byte) (p : List Byte) : (Request.mk (mkWord op a b) p).b = b := by
  refine BitVec.eq_of_getLsbD_eq fun i hi => ?_
  rw [Request.b, BitVec.getLsbD_extractLsb', getLsbD_mkWord]
  simp [hi]

/-- A word is its three fields (R70). -/
theorem mkWord_fields (r : Request) : mkWord r.op r.a r.b = r.word := by
  refine BitVec.eq_of_getLsbD_eq fun i hi => ?_
  simp only [getLsbD_mkWord, Request.op, Request.a, Request.b, BitVec.getLsbD_extractLsb']
  by_cases h : i < 8
  · simp [h]
  · by_cases h' : i - 8 < 8
    · simp [h, h', show 8 + (i - 8) = i by omega]
    · simp [h, h', show i - 8 - 8 < 8 by omega, show 16 + (i - 8 - 8) = i by omega]

end Sys2Proof
end

