-- ==== Sys2Proof/Laws/PerInstr.lean ====
section
/-! SUPPORT. Laws of every operation as syntax, one lemma for each constructor. -/
namespace Sys2Proof.Laws.TableRow

/-- The word of a well-formed operation matches its row of spec/opcode_table.json (R87). -/
def Statement (i : Instr) : Prop := i.wellFormed = true → i.row.covers (encode i).word = true

theorem init : Statement .init := fun _ => by decide
theorem writeLine (n : Byte) (p : List Byte) : Statement (.writeLine n p) := fun _ => by
  have all : ∀ n : Byte, mkWord Opcode.writeLine n 0 &&& 0xFF00FF == 0x020000 := by decide +kernel
  exact all n
theorem setCursor (col row : Byte) : Statement (.setCursor col row) := fun _ => by
  have : mkWord Opcode.setCursor col row &&& 0xFF0000 = 0x030000 := by
    refine BitVec.eq_of_getLsbD_eq fun i hi => ?_
    rw [BitVec.getLsbD_and, getLsbD_mkWord]
    interval_cases i <;> simp [Opcode.setCursor]
  simpa [Instr.row, TableRow.covers, encode] using this
theorem clear : Statement .clear := fun _ => by decide
theorem home : Statement .home := fun _ => by decide
theorem setBacklight (on : Byte) : Statement (.setBacklight on) := fun h => by
  have all : ∀ on : Byte, (Instr.setBacklight on).wellFormed = true →
      mkWord Opcode.setBacklight on 0 &&& 0xFFFEFF == 0x060000 := by decide +kernel
  exact all on h
theorem display : Statement .display := fun _ => by decide
theorem noDisplay : Statement .noDisplay := fun _ => by decide
theorem cursor : Statement .cursor := fun _ => by decide
theorem noCursor : Statement .noCursor := fun _ => by decide
theorem blink : Statement .blink := fun _ => by decide
theorem noBlink : Statement .noBlink := fun _ => by decide
theorem sendCmd (v : Byte) : Statement (.sendCmd v) := fun _ => by
  have all : ∀ v : Byte, mkWord Opcode.sendCmd v 0 &&& 0xFF00FF == 0x100000 := by decide +kernel
  exact all v
theorem sendData (v : Byte) : Statement (.sendData v) := fun _ => by
  have all : ∀ v : Byte, mkWord Opcode.sendData v 0 &&& 0xFF00FF == 0x110000 := by decide +kernel
  exact all v
theorem pulse (x : Byte) : Statement (.pulse x) := fun h => by
  have all : ∀ x : Byte, composedClear x = true → mkWord Opcode.pulse x 0 &&& 0xFF06FF == 0x120000 := by decide +kernel
  exact all x h

end Sys2Proof.Laws.TableRow
end

