-- ==== Sys2Proof/Laws/State.lean ====
section
/-! SUPPORT. Each field after each update of the state: one lemma per field per operation, so that no later proof unfolds a
record update. -/
namespace Sys2Proof.Machine

/-! ## busWrite -/
section
variable (s : State) (v : Byte) (r : Answer)
@[simp] theorem State.busWrite_cfg : (s.busWrite v r).cfg = s.cfg := rfl
@[simp] theorem State.busWrite_ctl : (s.busWrite v r).ctl = s.ctl := rfl
@[simp] theorem State.busWrite_phase : (s.busWrite v r).phase = s.phase := rfl
@[simp] theorem State.busWrite_rsp : (s.busWrite v r).rsp = s.rsp := rfl
@[simp] theorem State.busWrite_trace : (s.busWrite v r).trace = s.trace ++ [.write s.cfg.addr v r] := rfl
@[simp] theorem State.busWrite_sync : (s.busWrite v r).sync = s.sync := rfl
@[simp] theorem State.busWrite_uninitUse : (s.busWrite v r).uninitUse = s.uninitUse := rfl
@[simp] theorem State.busWrite_refusedMark : (s.busWrite v r).refusedMark = s.refusedMark := rfl
@[simp] theorem State.busWrite_requests : (s.busWrite v r).requests = s.requests := rfl
@[simp] theorem State.busWrite_answers : (s.busWrite v r).answers = s.answers.tail := rfl
@[simp] theorem State.busWrite_draws : (s.busWrite v r).draws = s.draws + 1 := rfl
@[simp] theorem State.busWrite_expander_ok : (s.busWrite v .ok).expander = v := rfl
@[simp] theorem State.busWrite_expander_fail : (s.busWrite v .fail).expander = Config.freeLatch (s.draws + 1) := rfl
end

/-! ## busWait -/
section
variable (s : State) (kind : WaitKind)
@[simp] theorem State.busWait_cfg : (s.busWait kind).cfg = s.cfg := rfl
@[simp] theorem State.busWait_ctl : (s.busWait kind).ctl = s.ctl := rfl
@[simp] theorem State.busWait_phase : (s.busWait kind).phase = s.phase := rfl
@[simp] theorem State.busWait_rsp : (s.busWait kind).rsp = s.rsp := rfl
@[simp] theorem State.busWait_trace : (s.busWait kind).trace = s.trace ++ [.wait kind] := rfl
@[simp] theorem State.busWait_sync : (s.busWait kind).sync = s.sync := rfl
@[simp] theorem State.busWait_uninitUse : (s.busWait kind).uninitUse = s.uninitUse := rfl
@[simp] theorem State.busWait_refusedMark : (s.busWait kind).refusedMark = s.refusedMark := rfl
@[simp] theorem State.busWait_expander : (s.busWait kind).expander = s.expander := rfl
@[simp] theorem State.busWait_requests : (s.busWait kind).requests = s.requests := rfl
@[simp] theorem State.busWait_answers : (s.busWait kind).answers = s.answers := rfl
@[simp] theorem State.busWait_draws : (s.busWait kind).draws = s.draws := rfl
end

/-! ## finish -/
section
variable (s : State) (op : Byte) (st : BitVec 2) (kk vv : Byte)
@[simp] theorem State.finish_cfg : (s.finish op st kk vv).cfg = s.cfg := rfl
@[simp] theorem State.finish_ctl : (s.finish op st kk vv).ctl = s.ctl := rfl
@[simp] theorem State.finish_phase : (s.finish op st kk vv).phase = .idle := rfl
@[simp] theorem State.finish_rsp : (s.finish op st kk vv).rsp = ⟨st, kk, vv⟩ := rfl
@[simp] theorem State.finish_trace : (s.finish op st kk vv).trace = s.trace ++ [.ended op st] := rfl
@[simp] theorem State.finish_sync : (s.finish op st kk vv).sync = nextSync op st s.sync := rfl
@[simp] theorem State.finish_uninitUse : (s.finish op st kk vv).uninitUse = s.uninitUse := rfl
@[simp] theorem State.finish_refusedMark : (s.finish op st kk vv).refusedMark = s.refusedMark := rfl
@[simp] theorem State.finish_expander : (s.finish op st kk vv).expander = s.expander := rfl
@[simp] theorem State.finish_requests : (s.finish op st kk vv).requests = s.requests := rfl
@[simp] theorem State.finish_answers : (s.finish op st kk vv).answers = s.answers := rfl
@[simp] theorem State.finish_draws : (s.finish op st kk vv).draws = s.draws := rfl
end

/-! ## abort -/
section
variable (s : State) (op : Byte) (k : Nat) (v : Byte)
@[simp] theorem State.abort_cfg : (s.abort op k v).cfg = s.cfg := rfl
@[simp] theorem State.abort_ctl : (s.abort op k v).ctl = s.ctl := rfl
@[simp] theorem State.abort_phase : (s.abort op k v).phase = .idle := rfl
@[simp] theorem State.abort_rsp : (s.abort op k v).rsp = ⟨1, saturate k, v⟩ := rfl
@[simp] theorem State.abort_trace : (s.abort op k v).trace = s.trace ++ [.ended op 1] := rfl
@[simp] theorem State.abort_sync : (s.abort op k v).sync = .unknown := rfl
@[simp] theorem State.abort_uninitUse : (s.abort op k v).uninitUse = s.uninitUse := rfl
@[simp] theorem State.abort_refusedMark : (s.abort op k v).refusedMark = s.refusedMark := rfl
@[simp] theorem State.abort_expander : (s.abort op k v).expander = s.expander := rfl
@[simp] theorem State.abort_requests : (s.abort op k v).requests = s.requests := rfl
@[simp] theorem State.abort_answers : (s.abort op k v).answers = s.answers := rfl
@[simp] theorem State.abort_draws : (s.abort op k v).draws = s.draws := rfl
end

/-! ## refuse -/
section
variable (s : State) (op : Byte)
@[simp] theorem State.refuse_cfg : (s.refuse op).cfg = s.cfg := rfl
@[simp] theorem State.refuse_ctl : (s.refuse op).ctl = s.ctl := rfl
@[simp] theorem State.refuse_phase : (s.refuse op).phase = .idle := rfl
@[simp] theorem State.refuse_rsp : (s.refuse op).rsp = ⟨2, 0, 0⟩ := rfl
@[simp] theorem State.refuse_trace : (s.refuse op).trace = s.trace ++ [.ended op 2] := rfl
@[simp] theorem State.refuse_sync : (s.refuse op).sync = s.sync := rfl
@[simp] theorem State.refuse_uninitUse : (s.refuse op).uninitUse = s.uninitUse := rfl
@[simp] theorem State.refuse_refusedMark : (s.refuse op).refusedMark = true := rfl
@[simp] theorem State.refuse_expander : (s.refuse op).expander = s.expander := rfl
@[simp] theorem State.refuse_requests : (s.refuse op).requests = s.requests := rfl
@[simp] theorem State.refuse_answers : (s.refuse op).answers = s.answers := rfl
@[simp] theorem State.refuse_draws : (s.refuse op).draws = s.draws := rfl
end

/-! ## accept -/
section
variable (s : State) (op : Byte) (p : Plan)
@[simp] theorem State.accept_cfg : (s.accept op p).cfg = s.cfg := rfl
@[simp] theorem State.accept_ctl : (s.accept op p).ctl = p.ctl := rfl
@[simp] theorem State.accept_phase : (s.accept op p).phase = .busy ⟨op, 0, 0, p.script⟩ := rfl
@[simp] theorem State.accept_rsp : (s.accept op p).rsp = s.rsp := rfl
@[simp] theorem State.accept_trace : (s.accept op p).trace = s.trace := rfl
@[simp] theorem State.accept_sync : (s.accept op p).sync = s.sync := rfl
@[simp] theorem State.accept_uninitUse : (s.accept op p).uninitUse = nextUninit op s.sync s.uninitUse := rfl
@[simp] theorem State.accept_refusedMark : (s.accept op p).refusedMark = s.refusedMark := rfl
@[simp] theorem State.accept_expander : (s.accept op p).expander = s.expander := rfl
@[simp] theorem State.accept_requests : (s.accept op p).requests = s.requests := rfl
@[simp] theorem State.accept_answers : (s.accept op p).answers = s.answers := rfl
@[simp] theorem State.accept_draws : (s.accept op p).draws = s.draws := rfl
end

/-! ## withFetchWord -/
section
variable (s : State) (nbits w : Nat)
@[simp] theorem State.withFetchWord_cfg : (s.withFetchWord nbits w).cfg = s.cfg := rfl
@[simp] theorem State.withFetchWord_ctl : (s.withFetchWord nbits w).ctl = s.ctl := rfl
@[simp] theorem State.withFetchWord_phase : (s.withFetchWord nbits w).phase = .idle := rfl
@[simp] theorem State.withFetchWord_rsp : (s.withFetchWord nbits w).rsp = s.rsp := rfl
@[simp] theorem State.withFetchWord_trace : (s.withFetchWord nbits w).trace = s.trace := rfl
@[simp] theorem State.withFetchWord_sync : (s.withFetchWord nbits w).sync = s.sync := rfl
@[simp] theorem State.withFetchWord_uninitUse : (s.withFetchWord nbits w).uninitUse = s.uninitUse := rfl
@[simp] theorem State.withFetchWord_refusedMark : (s.withFetchWord nbits w).refusedMark = s.refusedMark := rfl
@[simp] theorem State.withFetchWord_expander : (s.withFetchWord nbits w).expander = s.expander := rfl
@[simp] theorem State.withFetchWord_requests : (s.withFetchWord nbits w).requests = tableRequest nbits w :: s.requests.tail := rfl
@[simp] theorem State.withFetchWord_answers : (s.withFetchWord nbits w).answers = s.answers := rfl
@[simp] theorem State.withFetchWord_draws : (s.withFetchWord nbits w).draws = s.draws := rfl
end

/-! ## constructed -/
section
variable (c : DeviceConfig)
@[simp] theorem State.constructed_cfg : (State.constructed c).cfg = c := rfl
@[simp] theorem State.constructed_ctl : (State.constructed c).ctl = ⟨dfOf c, DM_RESET, DC_RESET, BL_RESET⟩ := rfl
@[simp] theorem State.constructed_phase : (State.constructed c).phase = .idle := rfl
@[simp] theorem State.constructed_rsp : (State.constructed c).rsp = ⟨0, 0, 0⟩ := rfl
@[simp] theorem State.constructed_trace : (State.constructed c).trace = [] := rfl
@[simp] theorem State.constructed_sync : (State.constructed c).sync = .powerup := rfl
@[simp] theorem State.constructed_uninitUse : (State.constructed c).uninitUse = false := rfl
@[simp] theorem State.constructed_refusedMark : (State.constructed c).refusedMark = false := rfl
@[simp] theorem State.constructed_requests : (State.constructed c).requests = [] := rfl
end

/-! ## The transport's answers -/

/-- After a write the answers move up by one. -/
@[simp] theorem State.busWrite_answerAt (s : State) (v : Byte) (r : Answer) (j : Nat) :
    (s.busWrite v r).answerAt j = s.answerAt (j + 1) := by
  simp only [State.answerAt, busWrite_answers, busWrite_draws, List.getElem?_tail]
  congr 2
  omega

@[simp] theorem State.busWait_answerAt (s : State) (kind : WaitKind) (j : Nat) :
    (s.busWait kind).answerAt j = s.answerAt j := rfl

/-- Only the list of answers and the counter matter to an answer. -/
theorem State.answerAt_congr {s t : State} (h : s.answers = t.answers) (h' : s.draws = t.draws) (j : Nat) :
    s.answerAt j = t.answerAt j := by
  simp [State.answerAt, h, h']

end Sys2Proof.Machine
end

