-- ==== Sys2Proof/Laws/Sequencer.lean ====
section
/-! SUPPORT. What running an operation to its END does: `exec_cases` says once everything `exec` can answer, and
`runToEnd_cases` everything an operation in progress can come to. -/
namespace Sys2Proof.Machine

/-! ## Actions as events -/

/-- How many writes a script makes. -/
def writeCount : List Action → Nat
  | [] => 0
  | .write _ :: as => writeCount as + 1
  | .wait _ :: as => writeCount as

/-- The events of a script whose every write is answered `ok`. -/
def scriptEvents (a : BusAddr) : List Action → List Event
  | [] => []
  | .write v :: as => .write a v .ok :: scriptEvents a as
  | .wait k :: as => .wait k :: scriptEvents a as

@[simp] theorem scriptEvents_append (a : BusAddr) (as bs : List Action) :
    scriptEvents a (as ++ bs) = scriptEvents a as ++ scriptEvents a bs := by
  induction as with
  | nil => rfl
  | cons x as ih => cases x <;> simp [scriptEvents, ih]

theorem writeCount_eq (a : BusAddr) (as : List Action) : writeCount as = (writesOf (scriptEvents a as)).length := by
  induction as with
  | nil => rfl
  | cons x as ih => cases x <;> simp [scriptEvents, writeCount, writesOf, ih]

@[simp] theorem writesOf_append (es fs : List Event) : writesOf (es ++ fs) = writesOf es ++ writesOf fs := by
  induction es with
  | nil => rfl
  | cons e es ih => cases e <;> simp [writesOf, ih]

@[simp] theorem busEvents_append (es fs : List Event) : busEvents (es ++ fs) = busEvents es ++ busEvents fs := by
  induction es with
  | nil => rfl
  | cons e es ih => cases e <;> simp [busEvents, ih]

@[simp] theorem busEvents_scriptEvents (a : BusAddr) (as : List Action) :
    busEvents (scriptEvents a as) = scriptEvents a as := by
  induction as with
  | nil => rfl
  | cons x as ih => cases x <;> simp [scriptEvents, busEvents, ih]

@[simp] theorem busEvents_cutAtWrite (a : BusAddr) (as : List Action) (m : Nat) :
    busEvents (cutAtWrite m (scriptEvents a as)) = cutAtWrite m (scriptEvents a as) := by
  induction as generalizing m with
  | nil => simp [scriptEvents, cutAtWrite, busEvents]
  | cons x as ih => cases x <;> cases m <;> simp [scriptEvents, cutAtWrite, busEvents, ih]

/-! ## Running to the END -/

/-- What an operation in progress comes to when its remaining writes are answered `ok`. -/
theorem ticks_allOk (as : List Action) (s : State) (run : Running) (hp : s.phase = .busy run) (ht : run.todo = as)
    (ho : s.allOk (writeCount as)) :
    ticks (as.length + 1) s =
      { s with
        phase    := .idle
        rsp      := ⟨0, 0, 0⟩
        trace    := s.trace ++ scriptEvents s.cfg.addr as ++ [.ended run.op 0]
        sync     := nextSync run.op 0 s.sync
        expander := latchAfter s.expander (scriptEvents s.cfg.addr as)
        answers  := s.answers.drop (writeCount as)
        draws    := s.draws + writeCount as } := by
  induction as generalizing s run with
  | nil =>
    simp [ticks, tick, hp, ht, State.finish, scriptEvents, writeCount, latchAfter, STATUS_OK]
  | cons x as ih =>
    rw [List.length_cons, ticks]
    cases x with
    | wait k =>
      simp only [writeCount] at ho
      simp only [tick, hp, ht]
      refine (ih { s.busWait k with phase := .busy { run with pos := run.pos + 1, todo := as } } _ rfl rfl ho).trans ?_
      simp [scriptEvents, writeCount, latchAfter]
    | write v =>
      simp only [writeCount] at ho
      have h0 : s.answerAt 0 = .ok := ho 0 (Nat.succ_pos _)
      simp only [tick, hp, ht, h0]
      refine (ih { s.busWrite v .ok with phase := .busy { run with k := run.k + 1, pos := run.pos + 1, todo := as } } _
        rfl rfl (fun j hj => (State.busWrite_answerAt s v .ok j).trans (ho (j + 1) (by omega)))).trans ?_
      simp [scriptEvents, writeCount, latchAfter]
      omega

/-- What it comes to when one of them is answered `fail`: it is aborted at the first. -/
theorem ticks_failsAt (as : List Action) (s : State) (run : Running) (m : Nat) (v : Byte) (hp : s.phase = .busy run)
    (ht : run.todo = as) (hv : (writesOf (scriptEvents s.cfg.addr as))[m]? = some v) (hf : s.failsAt m) :
    ticks (as.length + 1) s =
      { s with
        phase    := .idle
        rsp      := ⟨1, saturate (run.k + m + 1), v⟩
        trace    := s.trace ++ cutAtWrite m (scriptEvents s.cfg.addr as) ++ [.ended run.op 1]
        sync     := .unknown
        expander := Config.freeLatch (s.draws + m + 1)
        answers  := s.answers.drop (m + 1)
        draws    := s.draws + (m + 1) } := by
  have idle_ticks : ∀ n (t : State), t.phase = .idle → ticks n t = t := by
    intro n
    induction n with
    | zero => intro t _; rfl
    | succ n ihn => intro t h; rw [ticks]; simp only [tick, h]; exact ihn t h
  induction as generalizing s run m with
  | nil => simp [scriptEvents, writesOf] at hv
  | cons x as ih =>
    rw [List.length_cons, ticks]
    cases x with
    | wait k =>
      simp only [tick, hp, ht]
      refine (ih { s.busWait k with phase := .busy { run with pos := run.pos + 1, todo := as } } _ m rfl rfl
        (by simpa [scriptEvents, writesOf] using hv) hf).trans ?_
      simp [scriptEvents, cutAtWrite]
    | write u =>
      cases m with
      | zero =>
        have h0 : s.answerAt 0 = .fail := hf.2
        simp only [tick, hp, ht, h0]
        rw [idle_ticks _ _ (State.abort_phase _ _ _ _)]
        have huv : u = v := by simpa [scriptEvents, writesOf] using hv
        simp [State.abort, State.finish, State.busWrite, scriptEvents, cutAtWrite, STATUS_TRANSPORT_FAILURE, nextSync,
          huv]
      | succ m =>
        have h0 : s.answerAt 0 = .ok := hf.1 0 (Nat.succ_pos _)
        simp only [tick, hp, ht, h0]
        refine (ih { s.busWrite u .ok with phase := .busy { run with k := run.k + 1, pos := run.pos + 1, todo := as } }
          _ m rfl rfl (by simpa [scriptEvents, writesOf] using hv)
          ⟨fun j hj => (State.busWrite_answerAt s u .ok j).trans (hf.1 (j + 1) (by omega)),
            (State.busWrite_answerAt s u .ok m).trans hf.2⟩).trans ?_
        simp [scriptEvents, cutAtWrite]
        refine ⟨?_, ?_, ?_⟩
        · congr 1; omega
        · congr 1; omega
        · omega

/-- Of any number of writes, all are answered `ok`, or there is a first answered `fail`. -/
theorem allOk_or_failsAt (s : State) (n : Nat) : s.allOk n ∨ ∃ m < n, s.failsAt m := by
  induction n with
  | zero => exact .inl (fun j hj => absurd hj (Nat.not_lt_zero j))
  | succ n ih =>
    rcases ih with h | ⟨m, hm, hf⟩
    · cases ha : s.answerAt n with
      | ok => exact .inl (fun j hj => (Nat.lt_succ_iff_lt_or_eq.mp hj).elim (h j) (fun e => e ▸ ha))
      | fail => exact .inr ⟨n, Nat.lt_succ_self n, h, ha⟩
    · exact .inr ⟨m, Nat.lt_succ_of_lt hm, hf⟩

/-- Everything an operation in progress can come to. -/
theorem runToEnd_cases (s : State) (run : Running) (hp : s.phase = .busy run) :
    runToEnd s =
      { s with
        phase    := .idle
        rsp      := ⟨0, 0, 0⟩
        trace    := s.trace ++ scriptEvents s.cfg.addr run.todo ++ [.ended run.op 0]
        sync     := nextSync run.op 0 s.sync
        expander := latchAfter s.expander (scriptEvents s.cfg.addr run.todo)
        answers  := s.answers.drop (writeCount run.todo)
        draws    := s.draws + writeCount run.todo } ∧ s.allOk (writeCount run.todo) ∨
    ∃ m v, (writesOf (scriptEvents s.cfg.addr run.todo))[m]? = some v ∧ s.failsAt m ∧ runToEnd s =
      { s with
        phase    := .idle
        rsp      := ⟨1, saturate (run.k + m + 1), v⟩
        trace    := s.trace ++ cutAtWrite m (scriptEvents s.cfg.addr run.todo) ++ [.ended run.op 1]
        sync     := .unknown
        expander := Config.freeLatch (s.draws + m + 1)
        answers  := s.answers.drop (m + 1)
        draws    := s.draws + (m + 1) } := by
  have hr : runToEnd s = ticks (run.todo.length + 1) s := by simp only [runToEnd, hp]
  rcases allOk_or_failsAt s (writeCount run.todo) with ho | ⟨m, hm, hf⟩
  · exact .inl ⟨hr.trans (ticks_allOk _ s run hp rfl ho), ho⟩
  · rw [writeCount_eq s.cfg.addr] at hm
    refine .inr ⟨m, _, List.getElem?_eq_getElem hm, hf, ?_⟩
    exact hr.trans (ticks_failsAt _ s run m _ hp rfl (List.getElem?_eq_getElem hm) hf)

/-! ## Operations -/

/-- The body of each operation. -/
def planOf : Instr → DeviceConfig → ControlState → Plan
  | .init => bodyInit
  | .writeLine _ p => bodyWriteLine p
  | .setCursor col row => bodySetCursor col row
  | .clear => bodyClear
  | .home => bodyHome
  | .setBacklight on => bodySetBacklight on
  | .display => bodyDisplay
  | .noDisplay => bodyNoDisplay
  | .cursor => bodyCursor
  | .noCursor => bodyNoCursor
  | .blink => bodyBlink
  | .noBlink => bodyNoBlink
  | .sendCmd v => bodySendCmd v
  | .sendData v => bodySendData v
  | .pulse x => bodyPulse x

/-- Every operation runs in the one frame of R100. -/
theorem exec_eq_operation (i : Instr) (s : State) : exec i s = operation i.opcode i.wellFormed (planOf i) s := by
  cases i <;> rfl

/-- The Control State after the body's change is that of the rules. -/
theorem planOf_ctl (i : Instr) (cfg : DeviceConfig) (c : ControlState) : (planOf i cfg c).ctl = ctlAfter i c := by
  cases i <;> rfl

/-- A composed byte is left as it is by clearing EN (R162). -/
theorem clearEN_eq (x : Byte) (hx : x &&& 0x06 = 0) : x &&& ~~~EN_MASK = x := by
  have all : ∀ y : Byte, y &&& 0x06 = 0 → y &&& ~~~EN_MASK = y := by decide +kernel
  exact all x hx

theorem scriptEvents_pulse (a : BusAddr) (x : Byte) (hx : x &&& 0x06 = 0) : scriptEvents a (pulse x) = pulseEvents a x := by
  simp only [pulse, scriptEvents, pulseEvents, clearEN_eq x hx]
  rfl

/-- What the Byte Sender composes has EN and RW clear (R76). -/
theorem composed_clear (y : Byte) (m : SendMode) (bl : BitVec 1) : (m.bits ||| (y &&& 0xF0) ||| blv bl) &&& 0x06 = 0 := by
  have all : ∀ y : Byte, ∀ m ∈ [SendMode.command, SendMode.data], ∀ bl : BitVec 1,
      (m.bits ||| (y &&& 0xF0) ||| blv bl) &&& 0x06 = 0 := by decide +kernel
  exact all y m (by cases m <;> simp) bl

theorem scriptEvents_sendByte (a : BusAddr) (c : ControlState) (v : Byte) (m : SendMode) :
    scriptEvents a (sendByte c v m) = byteEvents a c.bl m.bits v := by
  have hi : hiByte c v m = highComposed m.bits v c.bl := rfl
  have lo : loByte c v m = lowComposed m.bits v c.bl := rfl
  rw [sendByte, scriptEvents_append, hi, lo,
    scriptEvents_pulse a (highComposed m.bits v c.bl) (composed_clear v m c.bl),
    scriptEvents_pulse a (lowComposed m.bits v c.bl) (composed_clear (v <<< 4) m c.bl), byteEvents]

/-- The script of a well-formed operation makes the events of the rules. -/
theorem scriptEvents_planOf (i : Instr) (s : State) (hw : i.wellFormed = true) :
    scriptEvents s.cfg.addr (planOf i s.cfg s.ctl).script = successEvents i s := by
  cases i with
  | pulse x =>
    have hx : x &&& 0x06 = 0 := by simpa [Instr.wellFormed, composedClear] using hw
    exact scriptEvents_pulse _ _ hx
  | writeLine n p =>
    simp only [planOf, bodyWriteLine, sendBytes, successEvents, bytesSent, ctlAfter]
    induction lineOf s.cfg.cols.toNat p with
    | nil => rfl
    | cons b bs ih => simp [scriptEvents_sendByte, ih, SendMode.bits, RS_MASK]
  | init =>
    simp [planOf, bodyInit, successEvents, bytesSent, ctlAfter, scriptEvents_sendByte, SendMode.bits, scriptEvents,
      entryModeCommand, displayControlCommand, functionSetCommand, HANDSHAKE_1, HANDSHAKE_2, CLEARDISPLAY, ENTRYMODESET,
      DISPLAYCONTROL, FUNCTIONSET]
  | _ =>
    simp [planOf, bodySetCursor, bodyClear, bodyHome, bodySetBacklight, bodyDisplay, bodyNoDisplay, bodyCursor,
      bodyNoCursor, bodyBlink, bodyNoBlink, bodySendCmd, bodySendData, sendDisplayControl, successEvents, bytesSent,
      ctlAfter, scriptEvents_sendByte, SendMode.bits, RS_MASK, displayControlCommand, DISPLAYCONTROL, CLEARDISPLAY,
      RETURNHOME, ControlState.setDC, ControlState.clearDC, ControlState.setBL, DISPLAYON, CURSORON, BLINKON]

/-- Everything `exec` can answer (R100, R201, R204). -/
theorem exec_cases (i : Instr) (s : State) (hp : s.phase = .idle) :
    (i.wellFormed = false ∧ exec i s = .next (s.refuse i.opcode)) ∨
    (i.wellFormed = true ∧ s.allOk (writesOf (successEvents i s)).length ∧
      exec i s = .next (s.completed i.opcode (ctlAfter i s.ctl) (successEvents i s)
        (writesOf (successEvents i s)).length (nextSync i.opcode 0 s.sync)
        (nextUninit i.opcode s.sync s.uninitUse))) ∨
    (i.wellFormed = true ∧ ∃ m v, (writesOf (successEvents i s))[m]? = some v ∧ s.failsAt m ∧
      exec i s = .next (s.aborted i.opcode (ctlAfter i s.ctl) (successEvents i s) m v
        (nextUninit i.opcode s.sync s.uninitUse) (Config.freeLatch (s.draws + m + 1)))) := by
  rw [exec_eq_operation]
  simp only [operation, hp]
  cases hw : i.wellFormed with
  | false => exact .inl ⟨rfl, by simp⟩
  | true =>
    have hc := planOf_ctl i s.cfg s.ctl
    have he := scriptEvents_planOf i s hw
    have hn : writeCount (planOf i s.cfg s.ctl).script = (writesOf (successEvents i s)).length := by
      rw [writeCount_eq s.cfg.addr, he]
    refine .inr ?_
    rcases runToEnd_cases (s.accept i.opcode (planOf i s.cfg s.ctl)) _ rfl with ⟨hr, ho⟩ | ⟨m, v, hv, hf, hr⟩
    · refine .inl ⟨rfl, ?_, ?_⟩
      · exact hn ▸ ho
      · simp only [State.accept_cfg, he, hn] at hr
        simp only [if_true, hr]
        simp [State.completed, State.accept, hc]
    · refine .inr ⟨rfl, m, v, ?_, hf, ?_⟩
      · simpa [he] using hv
      · simp only [State.accept_cfg, he] at hr
        simp only [if_true, hr]
        simp [State.aborted, State.accept, hc, saturate]

/-- A BUSY block takes no request (R36). -/
theorem exec_busy (i : Instr) (s : State) (run : Running) (hp : s.phase = .busy run) :
    exec i s = .refused .requestWhileBusy := by
  rw [exec_eq_operation]; simp only [operation, hp]

end Sys2Proof.Machine
end

