-- ==== Sys2Proof/Laws/Step.lean ====
section
/-! SUPPORT. Everything `step` can answer with a next state, said once; and the two summaries of an operation that most
invariants need: a refusal, or a run with its events and its END. -/
namespace Sys2Proof.Machine

/-- Everything a step to a next state can be. -/
theorem step_cases (s t : State) (h : step s = .next t) :
    s.cfg.legal = true ∧ s.rsp.status ≠ 3 ∧
    ((∃ run, s.phase = .busy run ∧ t = runToEnd s) ∨
     (s.phase = .idle ∧ s.requests = [] ∧ t = s) ∨
     (∃ r rest i, s.phase = .idle ∧ s.requests = r :: rest ∧ decode r = .ok i ∧
        exec i { s with requests := rest } = .next t) ∨
     (∃ r rest e, s.phase = .idle ∧ s.requests = r :: rest ∧ decode r = .error e ∧
        t = State.refuse { s with requests := rest } r.op)) := by
  unfold step at h
  split at h
  · cases h
  · rename_i hl
    split at h
    · cases h
    · rename_i h3
      refine ⟨by simpa using hl, h3, ?_⟩
      split at h
      · rename_i run hp
        cases h
        exact .inl ⟨run, hp, rfl⟩
      · rename_i hp
        split at h
        · rename_i hr
          cases h
          exact .inr (.inl ⟨hp, hr, rfl⟩)
        · rename_i r rest hr
          split at h
          · rename_i i hd
            exact .inr (.inr (.inl ⟨r, rest, i, hp, hr, hd, h⟩))
          · rename_i e hd
            cases h
            exact .inr (.inr (.inr ⟨r, rest, e, hp, hr, hd, rfl⟩))

/-- What decodes is well formed (R73). -/
theorem decode_wellFormed {r : Request} {i : Instr} (h : decode r = .ok i) : i.wellFormed = true := by
  unfold decode at h
  split at h
  · cases h
  · split at h
    · cases h; assumption
    · cases h

/-- Only an IDLE block answers an operation with a next state (R36). -/
theorem exec_next_idle {i : Instr} {s t : State} (h : exec i s = .next t) : s.phase = .idle := by
  cases hp : s.phase with
  | idle => rfl
  | busy run => rw [exec_busy i s run hp] at h; cases h

end Sys2Proof.Machine
end

