-- ==== Sys2Proof/Tests/Slice0.lean ====
section
/-! SUPPORT. Tests: the WellFormed smoke, one written-out word for each constructor, the vectors of spec/95_test_vectors.md
(cited as V<n>), and for each statement of Obligations.lean a state and operands that meet its hypotheses. -/
namespace Sys2Proof.Tests
open Sys2Proof.Machine

/-! ## WellFormed (R73): each check refuses an ill-formed term -/
theorem test_wellFormed_payload_short : (Instr.writeLine 3 [0x41, 0x42]).wellFormed = false := by decide
theorem test_wellFormed_on_flag : (Instr.setBacklight 2).wellFormed = false := by decide
theorem test_wellFormed_enable_set : (Instr.pulse 0x04).wellFormed = false := by decide
theorem test_wellFormed_rw_set : (Instr.pulse 0x02).wellFormed = false := by decide
theorem test_wellFormed_accepts : (Instr.writeLine 1 [0x41]).wellFormed = true ∧ (Instr.setBacklight 1).wellFormed = true ∧
    (Instr.pulse 0xF9).wellFormed = true := by decide

/-! ## Words written out from the encodings of spec/opcode_table.json -/
theorem test_decode_init : decode ⟨0b000000010000000000000000, []⟩ = .ok .init := by decide
theorem test_decode_writeLine : decode ⟨0b000000100000001000000000, [0x48, 0x69]⟩ = .ok (.writeLine 2 [0x48, 0x69]) := by
  decide
theorem test_decode_setCursor : decode ⟨0b000000110001010000000001, []⟩ = .ok (.setCursor 20 1) := by decide
theorem test_decode_clear : decode ⟨0b000001000000000000000000, []⟩ = .ok .clear := by decide
theorem test_decode_home : decode ⟨0b000001010000000000000000, []⟩ = .ok .home := by decide
theorem test_decode_setBacklight : decode ⟨0b000001100000000100000000, []⟩ = .ok (.setBacklight 1) := by decide
theorem test_decode_display : decode ⟨0b000010000000000000000000, []⟩ = .ok .display := by decide
theorem test_decode_noDisplay : decode ⟨0b000010010000000000000000, []⟩ = .ok .noDisplay := by decide
theorem test_decode_cursor : decode ⟨0b000010100000000000000000, []⟩ = .ok .cursor := by decide
theorem test_decode_noCursor : decode ⟨0b000010110000000000000000, []⟩ = .ok .noCursor := by decide
theorem test_decode_blink : decode ⟨0b000011000000000000000000, []⟩ = .ok .blink := by decide
theorem test_decode_noBlink : decode ⟨0b000011010000000000000000, []⟩ = .ok .noBlink := by decide
theorem test_decode_sendCmd : decode ⟨0b000100000010100000000000, []⟩ = .ok (.sendCmd 0x28) := by decide
theorem test_decode_sendData : decode ⟨0b000100010100000100000000, []⟩ = .ok (.sendData 0x41) := by decide
theorem test_decode_pulse : decode ⟨0b000100100011100000000000, []⟩ = .ok (.pulse 0x38) := by decide

/-- V6, V22, V45, V66, V80, V82, V69, and a stray payload (log 6): refused, each by name. -/
theorem test_decode_rejects :
    decode ⟨0x120400, []⟩ = .error .controlBits ∧ decode ⟨0x102801, []⟩ = .error .fieldB ∧
    decode ⟨0x020300, [0x41, 0x42]⟩ = .error .payloadLength ∧ decode ⟨0x060200, []⟩ = .error .onFlag ∧
    decode ⟨0x000000, []⟩ = .error .reservedOpcode ∧ decode ⟨0x010100, []⟩ = .error .fieldA ∧
    decode ⟨0x040005, []⟩ = .error .fieldB ∧ decode ⟨0x040000, [0x41]⟩ = .error .strayPayload := by decide

/-- The table's numbering: bits above the word are the payload's. -/
theorem test_decodeTableWord :
    decodeTableWord 24 0x031401 = some (.setCursor 20 1) ∧ decodeTableWord 24 0x020200 = some (.writeLine 2 [0, 0]) ∧
    decodeTableWord 40 0x6948020200 = some (.writeLine 2 [0x48, 0x69]) ∧ decodeTableWord 24 0x070000 = none := by decide

/-- R84 and R85, on the forms of 95_test_vectors.md P1, P2, P4 and V43. -/
theorem test_assemble :
    assemble "INIT" = some ⟨0x010000, []⟩ ∧ assemble "WRITE_LINE \"Hi\"" = some ⟨0x020200, [0x48, 0x69]⟩ ∧
    assemble "WRITE_LINE [0x00, 0x80, 0xFF, 0x20]" = some ⟨0x020400, [0x00, 0x80, 0xFF, 0x20]⟩ ∧
    assemble "SET_CURSOR 20, 1" = some ⟨0x031401, []⟩ ∧ assemble "SEND_DATA 0x2A" = some ⟨0x112A00, []⟩ ∧
    assemble "PULSE 0x04" = some ⟨0x120400, []⟩ ∧ assemble "NO_BACKLIGHT" = some ⟨0x060000, []⟩ ∧
    assemble "SEND_CMD 256" = none ∧ assemble "SCROLL" = none := by decide

/-! ## One step on a small state -/

/-- The state the vectors start in: the given configuration, `SYNC = SYNCED`, and the next answers. -/
def start (cols : Byte) (lines : BitVec 3) (answers : List Answer) : State :=
  { State.constructed ⟨0x27, cols, lines, 0⟩ with sync := .synced, expander := 0, answers := answers }

/-- 16x2, the next `n` writes answered `ok`. -/
def okState (n : Nat) : State := start 16 2 (List.replicate n .ok)

/-- 16x2, write number `m`, counted from 0, the first answered `fail`. -/
def failState (m : Nat) : State := start 16 2 (List.replicate m .ok ++ [.fail])

def State.withCtl (s : State) (dc : Byte) (bl : BitVec 1) : State := { s with ctl := { s.ctl with dc := dc, bl := bl } }

def nextOf : Host.Outcome State Fault Refusal → Option State
  | .next t => some t
  | .fault _ => none
  | .refused _ => none

/-- The bytes written, and the last event. -/
def sentBy (i : Instr) (s : State) : Option (List Byte × Option Event) :=
  (nextOf (exec i s)).map fun t => (writesOf t.trace, t.trace.getLast?)

/-- V30. -/
theorem test_init_bytes : sentBy .init (okState 36) = some
    ([0x30, 0x34, 0x30, 0x30, 0x34, 0x30, 0x30, 0x34, 0x30, 0x20, 0x24, 0x20, 0x00, 0x04, 0x00, 0x60, 0x64, 0x60,
      0x00, 0x04, 0x00, 0xC0, 0xC4, 0xC0, 0x20, 0x24, 0x20, 0x80, 0x84, 0x80, 0x00, 0x04, 0x00, 0x10, 0x14, 0x10],
     some (.ended 0x01 0)) := by decide +kernel
/-- V38: write 8 fails. -/
theorem test_init_fails : (nextOf (exec .init (failState 7))).map (fun t => (writesOf t.trace, t.rsp, t.sync)) = some
    ([0x30, 0x34, 0x30, 0x30, 0x34, 0x30, 0x30, 0x34], ⟨1, 8, 0x34⟩, .unknown) := by decide
/-- V42: COLS 4, the text cut to "ABCD". -/
theorem test_writeLine_cuts : sentBy (.writeLine 6 [0x41, 0x42, 0x43, 0x44, 0x45, 0x46]) (start 4 2 (List.replicate 24 .ok))
    = some ([0x41, 0x45, 0x41, 0x11, 0x15, 0x11, 0x41, 0x45, 0x41, 0x21, 0x25, 0x21, 0x41, 0x45, 0x41, 0x31, 0x35, 0x31,
      0x41, 0x45, 0x41, 0x41, 0x45, 0x41], some (.ended 0x02 0)) := by decide
/-- V83: write 13 of "ABC" fails. -/
theorem test_writeLine_fails :
    (nextOf (exec (.writeLine 3 [0x41, 0x42, 0x43]) (failState 12))).map (fun t => (writesOf t.trace, t.rsp, t.sync)) =
    some ([0x41, 0x45, 0x41, 0x11, 0x15, 0x11, 0x41, 0x45, 0x41, 0x21, 0x25, 0x21, 0x41], ⟨1, 13, 0x41⟩, .unknown) := by
  decide +kernel
/-- V53. -/
theorem test_setCursor_column_unchecked : sentBy (.setCursor 20 1) (okState 6) = some
    ([0xD0, 0xD4, 0xD0, 0x40, 0x44, 0x40], some (.ended 0x03 0)) := by decide
/-- V59, V50c, V50d, V50e, V50i: clamp and truncation. -/
theorem test_cursorCommand : cursorCommand ⟨0x27, 16, 2, 0⟩ 255 3 = 0xBF ∧ cursorCommand ⟨0x27, 20, 4, 0⟩ 3 7 = 0xD7 ∧
    cursorCommand ⟨0x27, 20, 4, 0⟩ 172 3 = 0x80 ∧ cursorCommand ⟨0x27, 20, 4, 0⟩ 255 3 = 0xD3 ∧
    cursorCommand ⟨0x27, 16, 1, 0⟩ 5 255 = 0x85 := by decide
/-- V62. -/
theorem test_clear_bytes : sentBy .clear (State.withCtl (okState 6) 0x04 1) = some
    ([0x08, 0x0C, 0x08, 0x18, 0x1C, 0x18], some (.ended 0x04 0)) := by decide
/-- V61. -/
theorem test_home_bytes : sentBy .home (okState 6) = some ([0x00, 0x04, 0x00, 0x20, 0x24, 0x20], some (.ended 0x05 0)) := by
  decide
/-- V63. -/
theorem test_setBacklight_on : sentBy (.setBacklight 1) (okState 6) = some
    ([0x08, 0x0C, 0x08, 0xC8, 0xCC, 0xC8], some (.ended 0x06 0)) := by decide
/-- V68: BL keeps its new value. -/
theorem test_setBacklight_fails : (nextOf (exec (.setBacklight 1) (failState 4))).map (fun t => (t.ctl.bl, t.rsp, t.sync)) =
    some (1, ⟨1, 5, 0xCC⟩, .unknown) := by decide
/-- V76. -/
theorem test_display : sentBy .display (State.withCtl (okState 6) 0x07 0) = some
    ([0x00, 0x04, 0x00, 0xF0, 0xF4, 0xF0], some (.ended 0x08 0)) := by decide
/-- V77. -/
theorem test_noDisplay : sentBy .noDisplay (State.withCtl (okState 6) 0x07 0) = some
    ([0x00, 0x04, 0x00, 0xB0, 0xB4, 0xB0], some (.ended 0x09 0)) := by decide
/-- V84: DC keeps its new value. -/
theorem test_noDisplay_fails : (nextOf (exec .noDisplay (failState 0))).map (fun t => (t.ctl.dc, writesOf t.trace, t.rsp)) =
    some (0x00, [0x00], ⟨1, 1, 0x00⟩) := by decide
/-- V72. -/
theorem test_cursor : sentBy .cursor (okState 6) = some ([0x00, 0x04, 0x00, 0xE0, 0xE4, 0xE0], some (.ended 0x0A 0)) := by
  decide
/-- V79. -/
theorem test_noCursor : sentBy .noCursor (State.withCtl (okState 6) 0x07 0) = some
    ([0x00, 0x04, 0x00, 0xD0, 0xD4, 0xD0], some (.ended 0x0B 0)) := by decide
/-- V74. -/
theorem test_blink : sentBy .blink (okState 6) = some ([0x00, 0x04, 0x00, 0xD0, 0xD4, 0xD0], some (.ended 0x0C 0)) := by
  decide
/-- V7B. -/
theorem test_noBlink : sentBy .noBlink (State.withCtl (okState 6) 0x07 0) = some
    ([0x00, 0x04, 0x00, 0xE0, 0xE4, 0xE0], some (.ended 0x0D 0)) := by decide
/-- V15. -/
theorem test_sendCmd : sentBy (.sendCmd 0x5A) (State.withCtl (okState 6) 0x04 1) = some
    ([0x58, 0x5C, 0x58, 0xA8, 0xAC, 0xA8], some (.ended 0x10 0)) := by decide
/-- V21. -/
theorem test_sendData : sentBy (.sendData 0x48) (State.withCtl (okState 6) 0x04 1) = some
    ([0x49, 0x4D, 0x49, 0x89, 0x8D, 0x89], some (.ended 0x11 0)) := by decide
/-- V25: write 4 fails. -/
theorem test_sendData_fails : (nextOf (exec (.sendData 0x41) (failState 3))).map (fun t => (writesOf t.trace, t.rsp)) =
    some ([0x41, 0x45, 0x41, 0x11], ⟨1, 4, 0x11⟩) := by decide
/-- V4 with its waits, BL still 0, and SYNC UNKNOWN. -/
theorem test_pulse : (nextOf (exec (.pulse 0xF9) (okState 3))).map (fun t => (t.trace, t.ctl.bl, t.sync)) = some
    ([.write 0x27 0xF9 .ok, .wait .eDelay, .write 0x27 0xFD .ok, .wait .ePulse, .write 0x27 0xF9 .ok, .wait .eDelay,
      .ended 0x12 0], 0, .unknown) := by decide
/-- V9: write 2 fails, and no wait follows it. -/
theorem test_pulse_fails : (nextOf (exec (.pulse 0x38) (failState 1))).map (fun t => (t.trace, t.rsp)) = some
    ([.write 0x27 0x38 .ok, .wait .eDelay, .write 0x27 0x3C .fail, .ended 0x12 1], ⟨1, 2, 0x3C⟩) := by decide
/-- V47, V48: K saturates. -/
theorem test_saturate : saturate 1530 = 255 ∧ saturate 255 = 255 ∧ saturate 8 = 8 := by decide
/-- V80: a reserved opcode at the port. -/
theorem test_step_refuses :
    (nextOf (step { okState 0 with requests := [⟨0x000000, []⟩] })).map (fun t => (t.trace, t.rsp, t.sync, t.refusedMark))
    = some ([.ended 0x00 2], ⟨2, 0, 0⟩, .synced, true) := by decide
/-- V85: CLEAR from reset. -/
theorem test_step_uninit :
    (nextOf (step { State.reset with requests := [⟨0x040000, []⟩], answers := List.replicate 6 .ok })).map
      (fun t => (writesOf t.trace, t.uninitUse, t.sync, t.requests))
    = some ([0x00, 0x04, 0x00, 0x10, 0x14, 0x10], true, .powerup, []) := by decide
/-- The word placed by withFetchWord is the one the next step runs. -/
theorem test_withFetchWord : step (State.reset.withFetchWord 24 0x114100) = exec (.sendData 0x41) State.reset := by
  rfl

/-! ## Witnesses: states and operands that meet each statement's hypotheses -/

/-- A busy state: a PULSE just accepted. -/
def busyState (answers : List Answer) : State := (start 16 2 answers).accept 0x12 ⟨(start 16 2 answers).ctl, pulse 0x38⟩

/-- A state with one request at the port. -/
def portState (w : ReqWord) : State := { okState 36 with requests := [⟨w, []⟩] }

theorem reset_legal : (okState 36).RegistersLegal := by unfold State.RegistersLegal; decide
theorem reset_traceAgrees (s : State) (ht : s.trace = []) (hp : s.phase = .idle) (hr : s.rsp.status = 0)
    (hm : s.refusedMark = false) : s.TraceAgrees := by
  refine ⟨by rw [ht]; trivial, by rw [ht, hr]; rfl, by simp [ht, hm], by simp [hp]⟩

theorem witness_ConstructionGivesResetValues :
    (construct 0 1 1 0).isSome = true ∧ (construct 127 255 4 1).isSome = true := by decide
theorem witness_ConstructionRefusesIllegalConfigurations :
    construct 128 16 2 0 = none ∧ construct 39 0 2 0 = none ∧ construct 39 256 2 0 = none ∧ construct 39 16 0 0 = none ∧
    construct 39 16 5 0 = none ∧ construct 39 16 2 2 = none := by decide
theorem witness_FunctionSetRegisterComesFromConfiguration :
    (∃ t, step State.reset = .next t) ∧ dfOf ⟨0x27, 16, 1, 1⟩ = 0x04 ∧ dfOf ⟨0x27, 16, 2, 1⟩ = 0x08 ∧
    dfOf ⟨0x27, 8, 1, 0⟩ = 0x00 := ⟨⟨_, rfl⟩, by decide⟩
theorem witness_ResetMeetsTheInvariants : (DeviceConfig.mk 0x27 1 1 0).legal = true ∧ (DeviceConfig.mk 0 255 4 1).legal = true := by
  decide
theorem witness_StepKeepsRegistersLegal :
    (portState 0x010000).RegistersLegal ∧ ∃ t, step (portState 0x010000) = .next t :=
  ⟨by unfold State.RegistersLegal; decide, _, rfl⟩
theorem witness_StepKeepsTraceAgreeing : (portState 0x0A0000).TraceAgrees ∧ ∃ t, step (portState 0x0A0000) = .next t :=
  ⟨reset_traceAgrees _ rfl rfl rfl rfl, _, rfl⟩
theorem witness_SequencerPositionCountsEvents :
    (portState 0x0A0000).PositionAgrees ∧ (portState 0x0A0000).phase = .idle ∧ (busyState [.ok]).PositionAgrees ∧
    ∃ t, step (portState 0x0A0000) = .next t := by
  refine ⟨?_, rfl, ?_, _, rfl⟩
  · show sinceEnd [] = []; rfl
  · show 0 = (sinceEnd []).length ∧ 0 = (writesOf (sinceEnd [])).length; decide
theorem witness_StepRunsTheDecodedOperation :
    (portState 0x0A0000).cfg.legal = true ∧ (portState 0x0A0000).rsp.status ≠ 3 ∧ (portState 0x0A0000).phase = .idle ∧
    (portState 0x0A0000).requests = [⟨0x0A0000, []⟩] ∧ decode ⟨0x0A0000, []⟩ = .ok .cursor := by decide
theorem witness_StepRefusesWhatDoesNotDecode :
    (portState 0x130000).cfg.legal = true ∧ (portState 0x130000).rsp.status ≠ 3 ∧ (portState 0x130000).phase = .idle ∧
    (portState 0x130000).requests = [⟨0x130000, []⟩] ∧ decode ⟨0x130000, []⟩ = .error .reservedOpcode := by decide
theorem witness_IllFormedOperationEndsRefused :
    (okState 0).phase = .idle ∧ (Instr.pulse 0x06).wellFormed = false ∧ (Instr.setBacklight 2).wellFormed = false ∧
    (Instr.writeLine 1 []).wellFormed = false := by decide
theorem witness_StepHoldsWhenIdleAndFinishesWhenBusy :
    ((okState 0).cfg.legal = true ∧ (okState 0).rsp.status ≠ 3 ∧ (okState 0).phase = .idle ∧ (okState 0).requests = []) ∧
    (busyState []).cfg.legal = true ∧ (busyState []).rsp.status ≠ 3 ∧
    (busyState []).phase = .busy ⟨0x12, 0, 0, pulse 0x38⟩ := by decide
theorem witness_StepStopsOnlyOnImpossibleStates :
    step { okState 0 with cfg := ⟨0x27, 0, 2, 0⟩ } = .fault .noBlock ∧
    step { okState 0 with cfg := ⟨0x27, 16, 5, 0⟩ } = .fault .noBlock ∧
    step { okState 0 with rsp := ⟨3, 0, 0⟩ } = .fault .reservedStatus := ⟨rfl, rfl, rfl⟩

/-- An IDLE state whose next `n` writes succeed, and one whose write number `m` is the first to fail, the event list having
that write: the hypotheses of `RunsAs` and of the statement that uses it. -/
abbrev RunsBothWays (i : Instr) (n m : Nat) : Prop :=
  (okState n).phase = .idle ∧ i.wellFormed = true ∧ (okState n).cfg.legal = true ∧ (okState n).allOk n ∧
  (failState m).phase = .idle ∧ (failState m).cfg.legal = true ∧ (failState m).failsAt m ∧
  (writesOf (successEvents i (failState m)))[m]?.isSome = true

theorem witness_InitRuns : RunsBothWays .init 36 0 ∧ RunsBothWays .init 36 35 := by decide
theorem witness_WriteLineRuns :
    RunsBothWays (.writeLine 2 [0x48, 0x69]) 96 95 ∧ RunsBothWays (.writeLine 0 []) 96 0 ∧
    ([0x48] : List Byte).length ≠ (2 : Byte).toNat := by decide
theorem witness_SetCursorRuns : RunsBothWays (.setCursor 255 255) 6 5 ∧ RunsBothWays (.setCursor 0 0) 6 0 := by decide
theorem witness_ClearAndHomeRun : RunsBothWays .clear 6 5 ∧ RunsBothWays .home 6 0 := by decide
theorem witness_SetBacklightRuns :
    RunsBothWays (.setBacklight 1) 6 5 ∧ RunsBothWays (.setBacklight 0) 6 0 ∧ 1 < (2 : Byte).toNat := by decide
theorem witness_DisplayTogglesRun : RunsBothWays .display 6 5 ∧ RunsBothWays .noDisplay 6 0 := by decide
theorem witness_CursorTogglesRun : RunsBothWays .cursor 6 5 ∧ RunsBothWays .noCursor 6 0 := by decide
theorem witness_BlinkTogglesRun : RunsBothWays .blink 6 5 ∧ RunsBothWays .noBlink 6 0 := by decide
theorem witness_SendCmdRuns : RunsBothWays (.sendCmd 0xFF) 6 5 ∧ RunsBothWays (.sendCmd 0) 6 0 := by decide
theorem witness_SendDataRuns : RunsBothWays (.sendData 0xFF) 6 5 ∧ RunsBothWays (.sendData 0) 6 0 := by decide
theorem witness_PulseRuns : RunsBothWays (.pulse 0xF9) 3 2 ∧ (0xF9 : Byte) &&& 0x06 = 0 ∧ (0x04 : Byte) &&& 0x06 ≠ 0 ∧
    (0x02 : Byte) &&& 0x06 ≠ 0 := by decide

theorem witness_EveryOperationEndsOnce : (okState 0).phase = .idle ∧ (failState 0).phase = .idle := by decide

/-- A failed operation, and a successful one of each of the two registers an operation writes. -/
theorem witness_failed : ∃ t, exec .noDisplay (failState 0) = .next t ∧ t.rsp.status = 1 := ⟨_, rfl, by decide⟩
theorem witness_succeeded : ∃ t, exec .cursor (okState 6) = .next t ∧ t.rsp.status = 0 ∧ t.ctl.dc ≠ (okState 6).ctl.dc :=
  ⟨_, rfl, by decide⟩
theorem witness_backlightWritten :
    ∃ t, exec (.setBacklight 1) (okState 6) = .next t ∧ t.ctl.bl ≠ (okState 6).ctl.bl ∧
      (Instr.setBacklight 1).opcode ≠ 0x12 ∧ writesOf (newEvents (okState 6) t) ≠ [] := ⟨_, rfl, by decide⟩

theorem witness_FailureIsTheLastEvent : ∃ t, exec .clear (failState 5) = .next t ∧
    ∃ a u, Event.write a u .fail ∈ newEvents (failState 5) t := ⟨_, rfl, 0x27, 0x10, by decide⟩
theorem witness_FailureKeepsControlState : ∃ t, exec (.setBacklight 1) (failState 5) = .next t ∧ t.rsp.status = 1 :=
  ⟨_, rfl, by decide⟩
theorem witness_RegistersWrittenOnlyByTheirOperations :
    (∃ t, exec .cursor (okState 6) = .next t ∧ t.ctl.dc ≠ (okState 6).ctl.dc) ∧
    ∃ t, exec (.setBacklight 1) (okState 6) = .next t ∧ t.ctl.bl ≠ (okState 6).ctl.bl :=
  ⟨⟨_, rfl, by decide⟩, _, rfl, by decide⟩
theorem witness_ToggleLaw :
    (∃ t, exec .display (okState 6) = .next t) ∧ (∃ t, exec .noDisplay (failState 0) = .next t) ∧
    (∃ t, exec .cursor (okState 6) = .next t) ∧ (∃ t, exec .noCursor (failState 5) = .next t) ∧
    (∃ t, exec .blink (okState 6) = .next t) ∧ ∃ t, exec .noBlink (failState 3) = .next t :=
  ⟨⟨_, rfl⟩, ⟨_, rfl⟩, ⟨_, rfl⟩, ⟨_, rfl⟩, ⟨_, rfl⟩, ⟨_, rfl⟩⟩
theorem witness_TraceIsAppendOnly : ∃ t, step (portState 0x0A0000) = .next t ∧ t.trace ≠ [] := ⟨_, rfl, by decide⟩
theorem witness_ResponseWrittenAtEndOnly :
    (busyState [.fail]).phase = .busy ⟨0x12, 0, 0, pulse 0x38⟩ ∧ (tick (busyState [.ok])).phase ≠ .idle ∧
    (tick (busyState [.fail])).phase = .idle ∧ (okState 0).phase = .idle := by decide
theorem witness_SyncTransitions :
    (∃ t, exec .clear (failState 0) = .next t ∧ t.rsp.status = 1) ∧
    (∃ t, exec .init (okState 36) = .next t ∧ t.rsp.status = 0) ∧
    (∃ t, exec (.pulse 0x38) (okState 3) = .next t ∧ t.rsp.status = 0) ∧
    (∃ t, exec (.pulse 0x04) (okState 3) = .next t ∧ t.rsp.status = 2) ∧
    ∃ t, step (portState 0x070000) = .next t :=
  ⟨⟨_, rfl, by decide⟩, ⟨_, rfl, by decide⟩, ⟨_, rfl, by decide⟩, ⟨_, rfl, by decide⟩, _, rfl⟩
theorem witness_GhostMarksAreSticky :
    (∃ t, exec .home (okState 6) = .next t) ∧
    (∃ t, step { portState 0x0A0000 with uninitUse := true, refusedMark := true } = .next t) ∧
    decode ⟨0x0A0001, []⟩ = .error .fieldB ∧ ∃ t, step (portState 0x0A0001) = .next t :=
  ⟨⟨_, rfl⟩, ⟨_, rfl⟩, by decide, _, rfl⟩
theorem witness_GhostStateChangesNoEvent : ∃ t, exec (.sendData 0x41) (okState 6) = .next t ∧ t.trace ≠ [] :=
  ⟨_, rfl, by decide⟩
theorem witness_EveryByteCarriesTheBacklightBit :
    ∃ t, exec (.setBacklight 1) (okState 6) = .next t ∧ 0x08 ∈ writesOf (newEvents (okState 6) t) := ⟨_, rfl, by decide⟩
theorem witness_WritesFormEnablePulses :
    (∃ t, exec .clear (okState 6) = .next t ∧ t.rsp.status = 0) ∧ ∃ t, exec .clear (failState 4) = .next t :=
  ⟨⟨_, rfl, by decide⟩, _, rfl⟩
theorem witness_WiresDeliverTheBytesSent :
    (okState 36).phase = .idle ∧ Instr.init.wellFormed = true ∧ Instr.init.opcode ≠ 0x12 ∧
    (okState 36).expander &&& 0x04 = 0 ∧ (okState 36).allOk (writesOf (successEvents .init (okState 36))).length := by decide
theorem witness_DurationLowerBounds :
    (okState 96).allOk (writesOf (successEvents (.writeLine 0 []) (okState 96))).length ∧
    (okState 3).allOk (writesOf (successEvents (.pulse 0x38) (okState 3))).length := by decide
theorem witness_WriteLineEqualsSendDataOfTheLine :
    (okState 96).phase = .idle ∧ (okState 96).cfg.legal = true ∧ ([0x48, 0x69] : List Byte).length = (2 : Byte).toNat ∧
    (okState 96).allOk (6 * (okState 96).cfg.cols.toNat) := by decide
theorem witness_SendCmdOneEqualsClear : (okState 6).phase = .idle ∧ (failState 2).phase = .idle := by decide
theorem witness_TwoPulsesEqualOneSendByte : (okState 6).phase = .idle ∧ (okState 6).allOk 6 := by decide
theorem witness_InitThenOperationsStaySynchronised :
    (okState 48).phase = .idle ∧ (∀ i ∈ [Instr.clear, Instr.setBacklight 1], i.wellFormed = true ∧ i.opcode ≠ 0x12) ∧
    (okState 48).allOk
      (36 + ([Instr.clear, .setBacklight 1].map fun i => (writesOf (successEvents i (okState 48))).length).sum) ∧
    (okState 48).uninitUse = false ∧
    Launch.holds ⟨Config.tPowerup, true, true, true⟩ :=
  ⟨rfl, by decide, by decide, rfl, Nat.le_refl _, rfl, rfl, rfl⟩
theorem witness_LineIsPaddedOrCutToWidth :
    lineOf 4 [0x48] = [0x48, 0x20, 0x20, 0x20] ∧ lineOf 2 [0x41, 0x42, 0x43] = [0x41, 0x42] ∧
    0 < min ([0x48] : List Byte).length 4 ∧ ([0x48] : List Byte).length ≤ 3 := by decide
theorem witness_RowIsClamped :
    clampRow 2 1 = 1 ∧ clampRow 2 2 = 1 ∧ clampRow 1 255 = 0 ∧ clampRow 4 3 = 3 := by decide
theorem witness_CursorSumIsCutByTheMasks : (DeviceConfig.mk 0x27 20 4 0).legal = true := by decide
theorem witness_DecodeOfEncode : (Instr.writeLine 2 [0x48, 0x69]).wellFormed = true ∧ (Instr.pulse 0xF9).wellFormed = true := by
  decide
theorem witness_EncodeOfDecode : decode ⟨0x06_01_00, []⟩ = .ok (.setBacklight 1) := by decide
theorem witness_ReservedOpcodesAreRefused :
    decode ⟨0x0E0000, []⟩ = .error .reservedOpcode ∧ decode ⟨0x130000, []⟩ = .error .reservedOpcode ∧
    decode ⟨0xFF0000, []⟩ = .error .reservedOpcode ∧ decode ⟨0x120000, []⟩ = .ok (.pulse 0) ∧
    (portState 0x0F0000).phase = .idle ∧ (portState 0x0F0000).requests = [⟨0x0F0000, []⟩] := by decide
theorem witness_DecodeTakesExactlyTheTableRows :
    (Instr.row (.pulse 0)).covers 0x12F900 = true ∧ (Request.mk 0x12F900 []).op ≠ 0x02 := by decide
theorem witness_RequestLengthFromOpAndA : decode ⟨0x020200, [0x48, 0x69]⟩ = .ok (.writeLine 2 [0x48, 0x69]) := by decide
theorem witness_AssemblerEncodesQuotedText : ∀ c ∈ ['H', 'i'], c.toNat ≤ 255 ∧ c ≠ '"' := by simp

end Sys2Proof.Tests
end

section
/-! PROOF. Construction (spec/00_scope.md R6): what `construct` answers, the values its registers get, and which configurations
ask for 5x10 dots. -/
namespace Sys2Proof.Machine

/-- The configuration registers that `construct` fills from its four numbers. -/
def configOf (addr cols lines font : Nat) : DeviceConfig :=
  ⟨BitVec.ofNat 7 addr, BitVec.ofNat 8 cols, BitVec.ofNat 3 lines, BitVec.ofNat 1 font⟩

section
variable {addr cols lines font : Nat}

/-- All that `construct` can answer: inside the ranges of R6 the block at its reset values, and outside them none. -/
theorem construct_eq_some_iff {s : State} :
    construct addr cols lines font = some s ↔
      (addr ≤ 127 ∧ 1 ≤ cols ∧ cols ≤ 255 ∧ 1 ≤ lines ∧ lines ≤ 4 ∧ font ≤ 1) ∧
        State.constructed (configOf addr cols lines font) = s := by
  simp only [construct, configOf, Option.ite_none_right_eq_some, Option.some.injEq]

theorem construct_isSome_iff :
    (construct addr cols lines font).isSome = true ↔
      addr ≤ 127 ∧ 1 ≤ cols ∧ cols ≤ 255 ∧ 1 ≤ lines ∧ lines ≤ 4 ∧ font ≤ 1 := by
  simp only [Option.isSome_iff_exists, construct_eq_some_iff, exists_and_left, exists_eq', and_true]

/-! Each register is wide enough for its range: no legal number is cut. -/

theorem configOf_addr_toNat (h : addr ≤ 127) : (configOf addr cols lines font).addr.toNat = addr :=
  Nat.mod_eq_of_lt (by omega)

theorem configOf_cols_toNat (h : cols ≤ 255) : (configOf addr cols lines font).cols.toNat = cols :=
  Nat.mod_eq_of_lt (by omega)

theorem configOf_lines_toNat (h : lines ≤ 4) : (configOf addr cols lines font).lines.toNat = lines :=
  Nat.mod_eq_of_lt (by omega)

theorem configOf_font_toNat (h : font ≤ 1) : (configOf addr cols lines font).font.toNat = font :=
  Nat.mod_eq_of_lt (by omega)

theorem configOf_font_eq_one_iff (h : font ≤ 1) : (configOf addr cols lines font).font = 1 ↔ font = 1 := by
  rw [BitVec.toNat_eq, configOf_font_toNat h]
  rfl

theorem configOf_legal (hcols : 1 ≤ cols) (hcols' : cols ≤ 255) (hlines : 1 ≤ lines) (hlines' : lines ≤ 4) :
    (configOf addr cols lines font).legal = true := by
  simp [DeviceConfig.legal, configOf_cols_toNat hcols', configOf_lines_toNat hlines', hcols, hlines, hlines']

end

/-- The F bit of DF (R24): the font and the number of lines decide it, and N is another bit. -/
theorem dfOf_dots5x10_iff (c : DeviceConfig) : dfOf c &&& 0x04 = 0x04 ↔ c.font = 1 ∧ c.lines.toNat = 1 := by
  unfold dfOf
  by_cases hF : c.font = 1 ∧ c.lines.toNat = 1
  · rw [if_pos hF, iff_true_right hF]
    split <;> decide
  · rw [if_neg hF, iff_false_right hF]
    split <;> decide

/-- Settles O2: `construct` answers inside the ranges of R6 only, and there its registers hold the very numbers given. -/
theorem constructionRefusesIllegalConfigurations : Obligations.ConstructionRefusesIllegalConfigurations := by
  unfold Obligations.ConstructionRefusesIllegalConfigurations
  constructor
  · intro addr cols lines font
    rw [construct_isSome_iff, ← Nat.le_one_iff_eq_zero_or_eq_one, and_assoc, and_assoc]
  · intro addr cols lines font s hs
    obtain ⟨⟨-, hcols, hcols', hlines, hlines', hfont⟩, rfl⟩ := construct_eq_some_iff.mp hs
    refine ⟨configOf_legal hcols hcols' hlines hlines', ?_⟩
    rw [State.constructed_ctl, dfOf_dots5x10_iff, configOf_font_eq_one_iff hfont, configOf_lines_toNat hlines']

end Sys2Proof.Machine
end

section
/-! PROOF. What only grows: the trace (spec/10_state.md R31) and the two ghost marks (R35). One relation between a state and a
later one, kept by each event and so by a run to the END, an operation and a step. -/
namespace Sys2Proof.Machine

/-- `t` has the history of `s` and perhaps more: no event is removed and no ghost mark is cleared. -/
structure State.ExtendsTo (s t : State) : Prop where
  trace_prefix : s.trace <+: t.trace
  uninitUse_kept : s.uninitUse = true → t.uninitUse = true
  refusedMark_kept : s.refusedMark = true → t.refusedMark = true

namespace State.ExtendsTo

theorem refl (s : State) : s.ExtendsTo s := ⟨List.prefix_rfl, id, id⟩

theorem trans {s t u : State} (hst : s.ExtendsTo t) (htu : t.ExtendsTo u) : s.ExtendsTo u where
  trace_prefix := hst.trace_prefix.trans htu.trace_prefix
  uninitUse_kept := htu.uninitUse_kept ∘ hst.uninitUse_kept
  refusedMark_kept := htu.refusedMark_kept ∘ hst.refusedMark_kept

end State.ExtendsTo

section
variable (s : State)

/-! An update extends the history whatever it does to the phase, which is no part of it. -/

theorem State.busWait_extendsTo (kind : WaitKind) (ph : Phase) : s.ExtendsTo { s.busWait kind with phase := ph } :=
  ⟨List.prefix_append _ _, id, id⟩

theorem State.busWrite_extendsTo (v : Byte) (r : Answer) (ph : Phase) :
    s.ExtendsTo { s.busWrite v r with phase := ph } :=
  ⟨List.prefix_append _ _, id, id⟩

theorem State.finish_extendsTo (op : Byte) (st : BitVec 2) (kk vv : Byte) : s.ExtendsTo (s.finish op st kk vv) :=
  ⟨List.prefix_append _ _, id, id⟩

theorem State.refuse_extendsTo (op : Byte) : s.ExtendsTo (s.refuse op) :=
  ⟨List.prefix_append _ _, id, fun _ => rfl⟩

theorem State.accept_extendsTo (op : Byte) (p : Plan) : s.ExtendsTo (s.accept op p) where
  trace_prefix := List.prefix_rfl
  uninitUse_kept := fun hu => by simp [nextUninit, hu]
  refusedMark_kept := id

/-- One event of the sequencer, whichever it is. -/
theorem tick_extendsTo : s.ExtendsTo (tick s) := by
  unfold tick
  split
  case h_1 => exact .refl s
  case h_2 run hp =>
    split
    case h_1 => exact s.finish_extendsTo ..
    case h_2 => exact s.busWait_extendsTo ..
    case h_3 v rest ht =>
      split
      case h_1 => exact s.busWrite_extendsTo ..
      case h_2 => exact (s.busWrite_extendsTo v .fail s.phase).trans (State.finish_extendsTo ..)

theorem ticks_extendsTo (n : Nat) : s.ExtendsTo (ticks n s) := by
  induction n generalizing s with
  | zero => exact .refl s
  | succ n ih => exact (tick_extendsTo s).trans (ih (tick s))

theorem runToEnd_extendsTo : s.ExtendsTo (runToEnd s) := by
  unfold runToEnd
  split
  case h_1 => exact .refl s
  case h_2 => exact ticks_extendsTo s _

end

section
variable {s t : State}

theorem exec_extendsTo {i : Instr} (h : exec i s = .next t) : s.ExtendsTo t := by
  have hp := exec_next_idle h
  rw [exec_eq_operation] at h
  simp only [operation, hp, Host.Outcome.next.injEq] at h
  subst h
  split
  case isTrue => exact (s.accept_extendsTo ..).trans (runToEnd_extendsTo _)
  case isFalse => exact s.refuse_extendsTo _

theorem step_extendsTo (h : step s = .next t) : s.ExtendsTo t := by
  obtain ⟨-, -, ⟨run, -, rfl⟩ | ⟨-, -, rfl⟩ | ⟨r, rest, i, -, -, -, hexec⟩ | ⟨r, rest, e, -, -, -, rfl⟩⟩ :=
    step_cases s t h
  · exact runToEnd_extendsTo s
  · exact .refl _
  · obtain ⟨htrace, huninit, hrefused⟩ := exec_extendsTo hexec
    exact ⟨htrace, huninit, hrefused⟩
  · obtain ⟨htrace, huninit, hrefused⟩ := State.refuse_extendsTo { s with requests := rest } r.op
    exact ⟨htrace, huninit, hrefused⟩

end

/-- Settles O29: a step and an event each extend the history they start from. -/
theorem traceIsAppendOnly : Obligations.TraceIsAppendOnly := by
  unfold Obligations.TraceIsAppendOnly
  exact ⟨fun _ _ h => (step_extendsTo h).trace_prefix, fun s => (tick_extendsTo s).trace_prefix⟩

end Sys2Proof.Machine
end

section
/-! PROOF. The ghost state after one operation (spec/10_state.md R34, R35): the three states an operation can end in, and which
operations `nextSync` and `nextUninit` single out. -/
namespace Sys2Proof.Machine

/-! ## The state an operation ends in -/

section
variable (s : State) (op : Byte) (c : ControlState) (es : List Event)

section
variable (n : Nat) (sync : Sync) (uninit : Bool)
@[simp] theorem State.completed_rsp : (s.completed op c es n sync uninit).rsp = ⟨0, 0, 0⟩ := rfl
@[simp] theorem State.completed_sync : (s.completed op c es n sync uninit).sync = sync := rfl
@[simp] theorem State.completed_uninitUse : (s.completed op c es n sync uninit).uninitUse = uninit := rfl
@[simp] theorem State.completed_refusedMark : (s.completed op c es n sync uninit).refusedMark = s.refusedMark := rfl
end

section
variable (m : Nat) (v : Byte) (uninit : Bool) (latch : Byte)
@[simp] theorem State.aborted_rsp :
    (s.aborted op c es m v uninit latch).rsp = ⟨1, BitVec.ofNat 8 (min (m + 1) 255), v⟩ := rfl
@[simp] theorem State.aborted_sync : (s.aborted op c es m v uninit latch).sync = .unknown := rfl
@[simp] theorem State.aborted_uninitUse : (s.aborted op c es m v uninit latch).uninitUse = uninit := rfl
@[simp] theorem State.aborted_refusedMark : (s.aborted op c es m v uninit latch).refusedMark = s.refusedMark := rfl
end
end

/-- `exec_cases` read from the next state: it is refused, completed or aborted. -/
theorem exec_next_cases {i : Instr} {s t : State} (h : exec i s = .next t) :
    (i.wellFormed = false ∧ t = s.refuse i.opcode) ∨
    (i.wellFormed = true ∧ t = s.completed i.opcode (ctlAfter i s.ctl) (successEvents i s)
      (writesOf (successEvents i s)).length (nextSync i.opcode 0 s.sync) (nextUninit i.opcode s.sync s.uninitUse)) ∨
    (i.wellFormed = true ∧ ∃ m v, t = s.aborted i.opcode (ctlAfter i s.ctl) (successEvents i s) m v
      (nextUninit i.opcode s.sync s.uninitUse) (Config.freeLatch (s.draws + m + 1))) := by
  rcases exec_cases i s (exec_next_idle h) with ⟨hw, he⟩ | ⟨hw, -, he⟩ | ⟨hw, m, v, -, -, he⟩ <;>
    cases h.symm.trans he
  · exact .inl ⟨hw, rfl⟩
  · exact .inr (.inl ⟨hw, rfl⟩)
  · exact .inr (.inr ⟨hw, m, v, rfl⟩)

/-- A request at the port that does not decode is consumed and refused (R204). -/
theorem step_of_decode_error {s : State} {r : Request} {rest : List Request} {e : Reject} (hl : s.cfg.legal = true)
    (hs : s.rsp.status ≠ 3) (hp : s.phase = .idle) (hr : s.requests = r :: rest) (hd : decode r = .error e) :
    step s = .next (State.refuse { s with requests := rest } r.op) := by
  simp only [step, hl, hs, hp, hr, hd, Bool.true_eq_false, if_false]

/-! ## Which operations the ghost flags single out -/

theorem opcode_eq_init_iff (i : Instr) : i.opcode = Opcode.init ↔ i = .init := by
  cases i with
  | init => exact iff_of_true rfl rfl
  | _ => exact iff_of_false (by simp only [Instr.opcode]; decide) (by simp)

theorem opcode_bne_init (i : Instr) : (i.opcode != Opcode.init) = (i != .init) := by
  rw [Bool.eq_iff_iff, bne_iff_ne, bne_iff_ne, Ne, Ne, opcode_eq_init_iff]

/-- `SYNC` after an operation of status OK, by operation and no longer by opcode (R34). -/
theorem nextSync_opcode_ok (i : Instr) (old : Sync) :
    nextSync i.opcode 0 old = if i = .init then .synced else if i.opcode = 0x12 then .unknown else old := by
  simp [nextSync, STATUS_TRANSPORT_FAILURE, STATUS_OK, opcode_eq_init_iff, Opcode.pulse]

theorem nextUninit_opcode (i : Instr) (sync : Sync) (old : Bool) :
    nextUninit i.opcode sync old = (old || (i != .init && sync != .synced)) := by
  rw [nextUninit, opcode_bne_init]

/-! ## The ghost state after an operation -/

section
variable {i : Instr} {s t : State}

theorem exec_sync (h : exec i s = .next t) :
    t.sync =
      if t.rsp.status = 1 then .unknown
      else if t.rsp.status = 0 ∧ i = .init then .synced
      else if t.rsp.status = 0 ∧ i.opcode = 0x12 then .unknown
      else s.sync := by
  obtain ⟨-, rfl⟩ | ⟨-, rfl⟩ | ⟨-, m, v, rfl⟩ := exec_next_cases h
  · simp
  · simpa using nextSync_opcode_ok i s.sync
  · simp

theorem exec_uninitUse (h : exec i s = .next t) :
    t.uninitUse = (s.uninitUse || (i.wellFormed && i != .init && s.sync != .synced)) := by
  obtain ⟨hw, rfl⟩ | ⟨hw, rfl⟩ | ⟨hw, m, v, rfl⟩ := exec_next_cases h
  · simp [hw]
  · simp [hw, nextUninit_opcode]
  · simp [hw, nextUninit_opcode]

theorem exec_refusedMark (h : exec i s = .next t) : t.refusedMark = (s.refusedMark || !i.wellFormed) := by
  obtain ⟨hw, rfl⟩ | ⟨hw, rfl⟩ | ⟨hw, m, v, rfl⟩ := exec_next_cases h <;> simp [hw]

end

/-- Settles O31: `SYNC` follows from how the operation ended, and a refusal at decode leaves it. -/
theorem syncTransitions : Obligations.SyncTransitions := by
  unfold Obligations.SyncTransitions
  refine ⟨State.constructed_sync, fun i s t h => exec_sync h, ?_⟩
  intro s r rest e t hl hs hp hr hd h
  cases h.symm.trans (step_of_decode_error hl hs hp hr hd)
  rfl

/-- Settles O32: the marks are set as an operation is accepted or refused, and kept because every step extends the history. -/
theorem ghostMarksAreSticky : Obligations.GhostMarksAreSticky := by
  unfold Obligations.GhostMarksAreSticky
  refine ⟨fun c => ⟨State.constructed_uninitUse c, State.constructed_refusedMark c⟩,
    fun i s t h => ⟨exec_uninitUse h, exec_refusedMark h⟩, ?_, ?_⟩
  · intro s r rest e t hl hs hp hr hd h
    cases h.symm.trans (step_of_decode_error hl hs hp hr hd)
    exact ⟨rfl, rfl⟩
  · intro s t h
    exact ⟨(step_extendsTo h).uninitUse_kept, (step_extendsTo h).refusedMark_kept⟩

end Sys2Proof.Machine
end

section
/-! PROOF. The decoder by format (spec/30_encoding.md R73, R74, R83, R87): which decoder of fields an opcode selects, and what
each of them can answer. -/
namespace Sys2Proof

/-- The reserved opcodes of R74. -/
def ReservedOp (op : Byte) : Prop :=
  op = 0x00 ∨ op = 0x07 ∨ op = 0x0E ∨ op = 0x0F ∨ 0x13 ≤ op.toNat

theorem reservedOp_iff_toNat (op : Byte) :
    ReservedOp op ↔ op.toNat = 0 ∨ op.toNat = 7 ∨ op.toNat = 14 ∨ op.toNat = 15 ∨ 19 ≤ op.toNat := by
  simp [ReservedOp, BitVec.toNat_eq]

theorem not_reservedOp_writeLine : ¬ ReservedOp Opcode.writeLine := by
  simp [reservedOp_iff_toNat, Opcode.writeLine]

/-- The formats without a payload (R87): N, the three with an operand in A, and CR. -/
inductive ReadWithoutPayload (r : Request) : Except Reject Instr → Prop where
  | none (i : Instr) : ReadWithoutPayload r (decodeNone r i)
  | a (f : Byte → Instr) : ReadWithoutPayload r (decodeA r f)
  | ab (f : Byte → Byte → Instr) : ReadWithoutPayload r (decodeAB r f)

section
variable {r : Request} {i j : Instr}

theorem decodeNone_eq_ok_iff : decodeNone r i = .ok j ↔ r.a = 0 ∧ r.b = 0 ∧ r.payload = [] ∧ i = j := by
  unfold decodeNone
  split_ifs <;> simp_all

theorem decodeA_eq_ok_iff {f : Byte → Instr} : decodeA r f = .ok i ↔ r.b = 0 ∧ r.payload = [] ∧ f r.a = i := by
  unfold decodeA
  split_ifs <;> simp_all

theorem decodeAB_eq_ok_iff {f : Byte → Byte → Instr} : decodeAB r f = .ok i ↔ r.payload = [] ∧ f r.a r.b = i := by
  unfold decodeAB
  split_ifs <;> simp_all

theorem decodeLine_eq_ok_iff {f : Byte → List Byte → Instr} :
    decodeLine r f = .ok i ↔ r.b = 0 ∧ f r.a r.payload = i := by
  unfold decodeLine
  split_ifs <;> simp_all

theorem decodeLine_ne_reservedOpcode (f : Byte → List Byte → Instr) : decodeLine r f ≠ .error .reservedOpcode := by
  unfold decodeLine
  split_ifs <;> simp

end

section
variable {r : Request} {d : Except Reject Instr}

theorem ReadWithoutPayload.payload_eq_nil {i : Instr} (h : ReadWithoutPayload r d) (hd : d = .ok i) :
    r.payload = [] := by
  cases h with
  | none j => exact (decodeNone_eq_ok_iff.mp hd).2.2.1
  | a f => exact (decodeA_eq_ok_iff.mp hd).2.1
  | ab f => exact (decodeAB_eq_ok_iff.mp hd).1

theorem ReadWithoutPayload.ne_reservedOpcode (h : ReadWithoutPayload r d) : d ≠ .error .reservedOpcode := by
  cases h with
  | none j => unfold decodeNone; split_ifs <;> simp
  | a f => unfold decodeA; split_ifs <;> simp
  | ab f => unfold decodeAB; split_ifs <;> simp

end

section
variable (r : Request)

/-- The opcode alone selects how the fields are read (R72, R74, R87). -/
theorem decodeFields_cases :
    (ReservedOp r.op ∧ decodeFields r = .error .reservedOpcode) ∨
    (r.op = Opcode.writeLine ∧ decodeFields r = decodeLine r .writeLine) ∨
    (¬ ReservedOp r.op ∧ r.op ≠ Opcode.writeLine ∧ ReadWithoutPayload r (decodeFields r)) := by
  have hline : r.op = Opcode.writeLine ↔ r.op.toNat = 2 := BitVec.toNat_eq
  simp only [reservedOp_iff_toNat, Ne, hline]
  unfold decodeFields
  split
  case h_2 hop => exact .inr (.inl ⟨hop, rfl⟩)
  case h_3 => exact .inr (.inr ⟨by omega, by omega, .ab _⟩)
  case h_6 | h_13 | h_14 | h_15 => exact .inr (.inr ⟨by omega, by omega, .a _⟩)
  case h_16 =>
    refine .inl ⟨?_, rfl⟩
    simp only [imp_false] at *
    omega
  all_goals exact .inr (.inr ⟨by omega, by omega, .none _⟩)

/-- No constraint on an operand is the opcode's (R73, R74). -/
theorem Instr.constraint_ne_reservedOpcode (i : Instr) : i.constraint ≠ .reservedOpcode := by
  cases i <;> simp [Instr.constraint]

theorem decode_eq_reservedOpcode_iff_decodeFields :
    decode r = .error .reservedOpcode ↔ decodeFields r = .error .reservedOpcode := by
  unfold decode
  split
  case h_1 e he => simp [he]
  case h_2 i hi =>
    rw [hi]
    split <;> simp [i.constraint_ne_reservedOpcode]

/-- The decoder rejects an opcode as reserved exactly where R74 lists it. -/
theorem decode_eq_reservedOpcode_iff : decode r = .error .reservedOpcode ↔ ReservedOp r.op := by
  rw [decode_eq_reservedOpcode_iff_decodeFields]
  obtain ⟨hop, hd⟩ | ⟨hop, hd⟩ | ⟨hop, -, hd⟩ := decodeFields_cases r
  · exact iff_of_true hd hop
  · exact iff_of_false (hd ▸ decodeLine_ne_reservedOpcode _) (hop ▸ not_reservedOp_writeLine)
  · exact iff_of_false hd.ne_reservedOpcode hop

end

section
variable {r : Request} {i : Instr}

theorem decodeFields_of_decode (h : decode r = .ok i) : decodeFields r = .ok i := by
  unfold decode at h
  split at h
  case h_1 => cases h
  case h_2 j hj =>
    split_ifs at h
    exact hj.trans h

/-- A request that decodes carries A bytes beside WRITE_LINE and none beside another opcode (R73, R87). -/
theorem payload_length_of_decode (h : decode r = .ok i) :
    r.payload.length = if r.op = Opcode.writeLine then r.a.toNat else 0 := by
  have hfields := decodeFields_of_decode h
  obtain ⟨-, hd⟩ | ⟨hop, hd⟩ | ⟨-, hop, hd⟩ := decodeFields_cases r
  · cases hd.symm.trans hfields
  · obtain ⟨-, rfl⟩ := decodeLine_eq_ok_iff.mp (hd.symm.trans hfields)
    simpa [hop, Instr.wellFormed] using Machine.decode_wellFormed h
  · simp [hop, hd.payload_eq_nil hfields]

end

/-- Settles O52: R83's `8 * A` payload bits are there because R73 asks for exactly A bytes. -/
theorem requestLengthFromOpAndA : Obligations.RequestLengthFromOpAndA := by
  unfold Obligations.RequestLengthFromOpAndA
  refine ⟨fun r i h => ?_, fun op a => rfl⟩
  rw [payload_length_of_decode h, requestBits]
  split <;> rfl

end Sys2Proof
end

section
/-! PROOF. A reserved opcode at the port (spec/30_encoding.md R74; 60_exceptions.md R204). -/
namespace Sys2Proof.Machine

/-- The refusal leaves the state R204 describes. -/
theorem State.refuse_eq_refusedWith (s : State) (op : Byte) : s.refuse op = s.refusedWith op := rfl

/-- Settles O49: only the opcode decides that it is reserved, and a request that does not decode is refused. -/
theorem reservedOpcodesAreRefused : Obligations.ReservedOpcodesAreRefused := by
  unfold Obligations.ReservedOpcodesAreRefused
  refine ⟨decode_eq_reservedOpcode_iff, fun s r rest hl hs hp hr hop => ?_⟩
  have hd : decode r = .error .reservedOpcode := (decode_eq_reservedOpcode_iff r).mpr hop
  rw [step_of_decode_error hl hs hp hr hd, State.refuse_eq_refusedWith]

end Sys2Proof.Machine
end

section
/-! PROOF. The pseudo-instructions (spec/30_encoding.md R85): each line's operation, and that operation's word. -/
namespace Sys2Proof.Machine

theorem assembleLine_backlight : assembleLine "BACKLIGHT".toList = some (.setBacklight 1) := by decide

theorem assembleLine_noBacklight : assembleLine "NO_BACKLIGHT".toList = some (.setBacklight 0) := by decide

theorem assembleLine_setBacklight_one : assembleLine "SET_BACKLIGHT 1".toList = some (.setBacklight 1) := by decide

theorem assembleLine_setBacklight_zero : assembleLine "SET_BACKLIGHT 0".toList = some (.setBacklight 0) := by decide

theorem encode_setBacklight_one : encode (.setBacklight 1) = ⟨0x060100, []⟩ := by decide

theorem encode_setBacklight_zero : encode (.setBacklight 0) = ⟨0x060000, []⟩ := by decide

/-- Settles O54: a pseudo-instruction and its SET_BACKLIGHT line are the same operation, so they have the same word. -/
theorem pseudoInstructionsAssemble : Obligations.PseudoInstructionsAssemble := by
  unfold Obligations.PseudoInstructionsAssemble
  simp only [assemble, assembleLine_backlight, assembleLine_noBacklight, assembleLine_setBacklight_one,
    assembleLine_setBacklight_zero, Option.map_some, encode_setBacklight_one, encode_setBacklight_zero, and_self]

end Sys2Proof.Machine
end

section
/-! PROOF. The line function (spec/40_facade.md R104): its length, and the byte at each index. -/
namespace Sys2Proof.Machine

section
variable (cols : Nat) (p : List Byte)

@[simp] theorem lineOf_length : (lineOf cols p).length = cols := by
  simp only [lineOf, List.length_append, List.length_take, List.length_replicate]
  omega

variable {cols p} {i : Nat}

/-- Below both lengths the line holds the payload's byte. -/
theorem lineOf_getElem?_payload (hi : i < min p.length cols) : (lineOf cols p)[i]? = p[i]? := by
  have htake : i < (p.take cols).length := by rw [List.length_take]; omega
  rw [lineOf, List.getElem?_append_left htake, List.getElem?_take_of_lt (by omega)]

/-- From the payload's length on it holds spaces. -/
theorem lineOf_getElem?_space (hp : p.length ≤ i) (hi : i < cols) : (lineOf cols p)[i]? = some SPACE := by
  have htake : p.take cols = p := List.take_of_length_le (by omega)
  rw [lineOf, htake, List.getElem?_append_right hp, List.getElem?_replicate_of_lt (by omega)]

end

/-- Settles O42: an index lies in the payload's part or in the padding. -/
theorem lineIsPaddedOrCutToWidth : Obligations.LineIsPaddedOrCutToWidth := by
  unfold Obligations.LineIsPaddedOrCutToWidth
  exact fun cols p => ⟨lineOf_length cols p, fun _ => lineOf_getElem?_payload, fun _ => lineOf_getElem?_space⟩

end Sys2Proof.Machine
end

section
/-! PROOF. The two ways a well-formed operation goes (spec/40_facade.md R100; 60_exceptions.md R201, R208): `exec_cases` read
forwards, from the transport's answers to the state the operation ends in; and what the bytes it sends make of that. -/
namespace Sys2Proof.Machine

/-! ## The transport's answers decide -/

section
variable {s : State} {m n : Nat}

theorem State.allOk.le_of_failsAt (ho : s.allOk n) (hf : s.failsAt m) : n ≤ m := by
  by_contra hlt
  have hok : s.answerAt m = .ok := ho m (by omega)
  rw [hf.2] at hok
  cases hok

/-- There is one first failing write. -/
theorem State.failsAt.unique (hm : s.failsAt m) (hn : s.failsAt n) : m = n :=
  Nat.le_antisymm (hm.1.le_of_failsAt hn) (hn.1.le_of_failsAt hm)

end

section
variable {i : Instr} {s : State}

/-- An operation that breaks a constraint of R73 is refused (R204). -/
theorem exec_of_not_wellFormed (hp : s.phase = .idle) (hw : i.wellFormed = false) :
    exec i s = .next (s.refusedWith i.opcode) := by
  rw [exec_eq_operation]
  simp only [operation, hp, hw, Bool.false_eq_true, if_false, State.refuse_eq_refusedWith]

/-- A well-formed operation runs as its success events say. -/
theorem runsAs_successEvents (hp : s.phase = .idle) (hw : i.wellFormed = true) :
    RunsAs i s i.opcode (ctlAfter i s.ctl) (successEvents i s) (writesOf (successEvents i s)).length
      (nextSync i.opcode 0 s.sync) (nextUninit i.opcode s.sync s.uninitUse) := by
  refine ⟨rfl, fun ho => ?_, fun m v hv hf => ?_⟩
  · obtain ⟨hw', -⟩ | ⟨-, -, he⟩ | ⟨-, m, v, hv, hf, -⟩ := exec_cases i s hp
    · simp [hw] at hw'
    · exact he
    · have hm := (List.getElem?_eq_some_iff.mp hv).1
      exact absurd (ho.le_of_failsAt hf) (by omega)
  · obtain ⟨hw', -⟩ | ⟨-, ho, -⟩ | ⟨-, m', v', hv', hf', he⟩ := exec_cases i s hp
    · simp [hw] at hw'
    · have hm := (List.getElem?_eq_some_iff.mp hv).1
      exact absurd (ho.le_of_failsAt hf) (by omega)
    · obtain rfl := hf.unique hf'
      cases hv.symm.trans hv'
      exact ⟨_, he⟩

end

/-! ## The events of the bytes sent -/

theorem writesOf_byteEvents_length (a : BusAddr) (bl : BitVec 1) (m b : Byte) :
    (writesOf (byteEvents a bl m b)).length = 6 := rfl

theorem writesOf_flatMap_byteEvents_length {α : Type} (xs : List α) (a : BusAddr) (bl : BitVec 1) (m b : α → Byte) :
    (writesOf (xs.flatMap fun x => byteEvents a bl (m x) (b x))).length = 6 * xs.length := by
  induction xs with
  | nil => rfl
  | cons x xs ih =>
    rw [List.flatMap_cons, writesOf_append, List.length_append, ih, writesOf_byteEvents_length, List.length_cons]
    omega

section
variable {i : Instr} {s : State}

/-- Any operation but INIT, which waits at its end, and PULSE makes the events of the bytes it sends and no others. -/
theorem successEvents_eq_flatMap (hinit : i ≠ .init) (hpulse : i.opcode ≠ 0x12) :
    successEvents i s =
      (bytesSent i s.cfg (ctlAfter i s.ctl)).flatMap fun p => byteEvents s.cfg.addr (ctlAfter i s.ctl).bl p.2 p.1 := by
  cases i with
  | init => exact absurd rfl hinit
  | pulse x => exact absurd rfl hpulse
  | _ => rfl

/-- Such an operation leaves `SYNC` and is a use before INIT where nothing is synchronised (R34, R35). -/
theorem runsAs_bytesSent (hp : s.phase = .idle) (hw : i.wellFormed = true) (hinit : i ≠ .init)
    (hpulse : i.opcode ≠ 0x12) :
    RunsAs i s i.opcode (ctlAfter i s.ctl)
      ((bytesSent i s.cfg (ctlAfter i s.ctl)).flatMap fun p => byteEvents s.cfg.addr (ctlAfter i s.ctl).bl p.2 p.1)
      (6 * (bytesSent i s.cfg (ctlAfter i s.ctl)).length) s.sync s.uninitAfter := by
  have hrun := runsAs_successEvents hp hw
  have hsync : nextSync i.opcode 0 s.sync = s.sync := by
    rw [nextSync_opcode_ok, if_neg hinit, if_neg hpulse]
  have huninit : nextUninit i.opcode s.sync s.uninitUse = s.uninitAfter := by
    rw [nextUninit_opcode, bne_iff_ne.mpr hinit, Bool.true_and, State.uninitAfter]
  rwa [hsync, huninit, successEvents_eq_flatMap hinit hpulse, writesOf_flatMap_byteEvents_length] at hrun

/-- One byte sent is six writes. INIT sends six bytes and PULSE none, so neither is such an operation. -/
theorem runsAs_oneByte {b m : Byte} (hp : s.phase = .idle) (hw : i.wellFormed = true)
    (hb : bytesSent i s.cfg (ctlAfter i s.ctl) = [(b, m)]) :
    RunsAs i s i.opcode (ctlAfter i s.ctl) (byteEvents s.cfg.addr (ctlAfter i s.ctl).bl m b) 6 s.sync s.uninitAfter := by
  have hinit : i ≠ .init := by rintro rfl; simp [bytesSent] at hb
  have hpulse : i.opcode ≠ 0x12 := by
    intro ho
    cases i with
    | pulse x => simp [bytesSent] at hb
    | _ => revert ho; simp only [Instr.opcode]; decide
  have hrun := runsAs_bytesSent hp hw hinit hpulse
  rwa [hb, List.flatMap_singleton] at hrun

end

end Sys2Proof.Machine
end

section
/-! PROOF. The operations of the facade (spec/40_facade.md): the encoding of each, the bytes it sends, and with them both ways
it runs. -/
namespace Sys2Proof.Machine

/-! ## INIT (R102, R103) -/

theorem encode_init : encode .init = ⟨0x010000, []⟩ := by decide

theorem successEvents_init (s : State) :
    successEvents .init s =
      byteEvents s.cfg.addr s.ctl.bl 0 0x33 ++ byteEvents s.cfg.addr s.ctl.bl 0 0x32
        ++ byteEvents s.cfg.addr s.ctl.bl 0 (0x04 ||| s.ctl.dm) ++ byteEvents s.cfg.addr s.ctl.bl 0 (0x08 ||| s.ctl.dc)
        ++ byteEvents s.cfg.addr s.ctl.bl 0 (0x20 ||| s.ctl.df) ++ byteEvents s.cfg.addr s.ctl.bl 0 0x01
        ++ [.wait .initSettle] := by
  simp [successEvents, bytesSent, ctlAfter]

theorem writesOf_successEvents_init_length (s : State) : (writesOf (successEvents .init s)).length = 36 := rfl

/-- Settles O13: INIT makes its six bytes' events and the settle wait, is no use before INIT, and synchronises. -/
theorem initRuns : Obligations.InitRuns := by
  unfold Obligations.InitRuns
  refine ⟨encode_init, fun s hp => ?_⟩
  have hrun := runsAs_successEvents hp (i := .init) rfl
  have hsync : nextSync Instr.init.opcode 0 s.sync = .synced := by rw [nextSync_opcode_ok, if_pos rfl]
  have huninit : nextUninit Instr.init.opcode s.sync s.uninitUse = s.uninitUse := by simp [nextUninit_opcode]
  rw [writesOf_successEvents_init_length, successEvents_init, hsync, huninit] at hrun
  exact hrun

/-! ## WRITE_LINE (R106) -/

theorem writeLine_wellFormed_iff (n : Byte) (p : List Byte) :
    (Instr.writeLine n p).wellFormed = true ↔ p.length = n.toNat := by
  simp [Instr.wellFormed]

/-- Settles O14: WRITE_LINE sends the bytes of its line as data, and the line has `cfg.COLS` bytes. -/
theorem writeLineRuns : Obligations.WriteLineRuns := by
  unfold Obligations.WriteLineRuns
  refine ⟨fun n p => rfl, fun s n p hp hn => ?_, fun s n p hp hn => ?_⟩
  · have hrun := runsAs_bytesSent hp ((writeLine_wellFormed_iff n p).mpr hn) (by simp)
      (show Opcode.writeLine ≠ 0x12 by decide)
    simp only [bytesSent, List.length_map, lineOf_length, List.flatMap_map] at hrun
    exact hrun
  · have hw : (Instr.writeLine n p).wellFormed = false := by
      rw [← Bool.not_eq_true, writeLine_wellFormed_iff]
      exact hn
    exact exec_of_not_wellFormed hp hw

/-! ## SET_CURSOR (R107 to R109) -/

theorem clampRow_lt_four {c : DeviceConfig} (hc : c.legal = true) (row : Nat) : clampRow c.lines.toNat row < 4 := by
  obtain ⟨⟨-, h1⟩, h4⟩ : (1 ≤ c.cols.toNat ∧ 1 ≤ c.lines.toNat) ∧ c.lines.toNat ≤ 4 := by
    simpa [DeviceConfig.legal] using hc
  unfold clampRow
  split <;> omega

theorem rowOffset_eq_getD {r : Nat} (hr : r < 4) : rowOffset r = [0x00, 0x40, 0x14, 0x54].getD r 0 := by
  interval_cases r <;> rfl

/-- With a legal configuration the lookup stays in the Row Offset Table, so the byte is R108's. -/
theorem cursorCommand_eq {c : DeviceConfig} (hc : c.legal = true) (col row : Byte) :
    cursorCommand c col row =
      BitVec.ofNat 8 (0x80 ||| (col.toNat + [0x00, 0x40, 0x14, 0x54].getD (clampRow c.lines.toNat row.toNat) 0)) := by
  rw [cursorCommand, cursorSum, rowOffset_eq_getD (clampRow_lt_four hc _), SETDDRAMADDR]

/-- Settles O15: SET_CURSOR sends the one byte of R108. -/
theorem setCursorRuns : Obligations.SetCursorRuns := by
  unfold Obligations.SetCursorRuns
  refine ⟨fun col row => rfl, fun s col row hp hc => ?_⟩
  exact runsAs_oneByte (i := .setCursor col row) hp rfl
    (congrArg (fun b => [(b, (0 : Byte))]) (cursorCommand_eq hc col row))

/-! ## CLEAR and HOME (R110, R111) -/

/-- Settles O16: each sends one byte of its own and changes no Control State. -/
theorem clearAndHomeRun : Obligations.ClearAndHomeRun := by
  unfold Obligations.ClearAndHomeRun
  exact ⟨by decide, by decide, fun s hp =>
    ⟨runsAs_oneByte (i := .clear) hp rfl rfl, runsAs_oneByte (i := .home) hp rfl rfl⟩⟩

/-! ## SET_BACKLIGHT (R113) -/

theorem setBacklight_not_wellFormed {on : Byte} (hon : 1 < on.toNat) : (Instr.setBacklight on).wellFormed = false := by
  simp only [Instr.wellFormed, Bool.or_eq_false_iff, beq_eq_false_iff_ne, Ne, BitVec.toNat_eq]
  exact ⟨Nat.ne_of_gt (Nat.lt_trans Nat.zero_lt_one hon), Nat.ne_of_gt hon⟩

/-- Settles O17: the Control State that the byte is sent with has the new BL already. -/
theorem setBacklightRuns : Obligations.SetBacklightRuns := by
  unfold Obligations.SetBacklightRuns
  refine ⟨fun on => rfl, fun s on hp hon => exec_of_not_wellFormed hp (setBacklight_not_wellFormed hon), fun s hp => ?_⟩
  exact ⟨runsAs_oneByte (i := .setBacklight 1) hp rfl rfl, runsAs_oneByte (i := .setBacklight 0) hp rfl rfl⟩

/-! ## The display-control toggles (R114 to R120) -/

/-- Settles O18: DISPLAY and NO_DISPLAY each send one byte, DISPLAYCONTROL with D of the DC just written. -/
theorem displayTogglesRun : Obligations.DisplayTogglesRun := by
  unfold Obligations.DisplayTogglesRun
  exact ⟨by decide, by decide, fun s hp =>
    ⟨runsAs_oneByte (i := .display) hp rfl rfl, runsAs_oneByte (i := .noDisplay) hp rfl rfl⟩⟩

/-- Settles O19: CURSOR and NO_CURSOR each send one byte, DISPLAYCONTROL with C of the DC just written. -/
theorem cursorTogglesRun : Obligations.CursorTogglesRun := by
  unfold Obligations.CursorTogglesRun
  exact ⟨by decide, by decide, fun s hp =>
    ⟨runsAs_oneByte (i := .cursor) hp rfl rfl, runsAs_oneByte (i := .noCursor) hp rfl rfl⟩⟩

/-- Settles O20: BLINK and NO_BLINK each send one byte, DISPLAYCONTROL with B of the DC just written. -/
theorem blinkTogglesRun : Obligations.BlinkTogglesRun := by
  unfold Obligations.BlinkTogglesRun
  exact ⟨by decide, by decide, fun s hp =>
    ⟨runsAs_oneByte (i := .blink) hp rfl rfl, runsAs_oneByte (i := .noBlink) hp rfl rfl⟩⟩

end Sys2Proof.Machine
end

section
/-! PROOF. The Byte Sender's primitive for data (spec/41_byte_sender.md R144): its word, the one byte it sends in data mode,
and with it both ways it runs. -/
namespace Sys2Proof.Machine

section
variable (v : Byte)

/-- The operand is field A, and field B is zero. -/
theorem encode_sendData : encode (.sendData v) = ⟨(0x11 : Byte) ++ v ++ (0x00 : Byte), []⟩ := rfl

/-- Any byte is an operand: R73 puts no constraint on it. -/
theorem sendData_wellFormed : (Instr.sendData v).wellFormed = true := rfl

/-- The operand goes out unchanged, with the mode bit of data. -/
theorem bytesSent_sendData (cfg : DeviceConfig) (c : ControlState) : bytesSent (.sendData v) cfg c = [(v, 1)] := rfl

end

/-- Settles O22: SEND_DATA is never refused and sends one byte, so it runs as every operation of one byte does. -/
theorem sendDataRuns : Obligations.SendDataRuns := by
  unfold Obligations.SendDataRuns
  refine ⟨encode_sendData, fun s v hp => ?_⟩
  exact runsAs_oneByte hp (sendData_wellFormed v) (bytesSent_sendData v s.cfg (ctlAfter (.sendData v) s.ctl))

end Sys2Proof.Machine
end

section
/-! PROOF. The Control State an operation leaves (spec/60_exceptions.md R202): the change is made as the operation is
accepted, before the first write, so only a refusal leaves it out. -/
namespace Sys2Proof.Machine

section
variable (s : State) (op : Byte) (c : ControlState) (es : List Event) (uninit : Bool)

@[simp] theorem State.completed_ctl (n : Nat) (sync : Sync) : (s.completed op c es n sync uninit).ctl = c := rfl
@[simp] theorem State.aborted_ctl (m : Nat) (v latch : Byte) : (s.aborted op c es m v uninit latch).ctl = c := rfl

end

/-- An operation that is not refused makes its Control State change, whichever way it ends (R202). -/
theorem exec_ctl_of_not_refused {i : Instr} {s t : State} (h : exec i s = .next t) (hr : t.rsp.status ≠ 2) :
    t.ctl = ctlAfter i s.ctl := by
  obtain ⟨-, rfl⟩ | ⟨-, rfl⟩ | ⟨-, m, v, rfl⟩ := exec_next_cases h
  · simp [State.refuse_rsp] at hr
  · exact State.completed_ctl ..
  · exact State.aborted_ctl ..

/-- Settles O26: an aborted operation was accepted, so its Control State change stands. -/
theorem failureKeepsControlState : Obligations.FailureKeepsControlState := by
  unfold Obligations.FailureKeepsControlState
  intro i s t h hfail
  have hr : t.rsp.status ≠ 2 := by rw [hfail]; decide
  exact exec_ctl_of_not_refused h hr

end Sys2Proof.Machine
end

section
/-! PROOF. What every step keeps: a predicate that survives taking a request, accepting an operation, refusing one and each
single event survives a step (spec/10_state.md R21, R36). Each invariant of a step is then a proof about these four. -/
namespace Sys2Proof.Machine

/-- Everything the next event of an operation in progress can be (R21, R201). -/
theorem tick_cases {s : State} {run : Running} (hp : s.phase = .busy run) :
    (run.todo = [] ∧ tick s = s.finish run.op STATUS_OK 0 0) ∨
    (∃ kind rest, run.todo = .wait kind :: rest ∧
      tick s = { s.busWait kind with phase := .busy { run with pos := run.pos + 1, todo := rest } }) ∨
    (∃ v rest, run.todo = .write v :: rest ∧
      tick s = { s.busWrite v .ok with phase := .busy { run with k := run.k + 1, pos := run.pos + 1, todo := rest } }) ∨
    (∃ v rest, run.todo = .write v :: rest ∧ tick s = (s.busWrite v .fail).abort run.op (run.k + 1) v) := by
  simp only [tick, hp]
  split
  case h_1 ht => exact .inl ⟨ht, rfl⟩
  case h_2 kind rest ht => exact .inr (.inl ⟨kind, rest, ht, rfl⟩)
  case h_3 v rest ht =>
    split
    case h_1 => exact .inr (.inr (.inl ⟨v, rest, ht, rfl⟩))
    case h_2 => exact .inr (.inr (.inr ⟨v, rest, ht, rfl⟩))

/-- An IDLE block makes no event (R216). -/
theorem tick_idle {s : State} (hp : s.phase = .idle) : tick s = s := by
  simp only [tick, hp]

/-- An IDLE block accepts a well-formed operation and runs it to its END, and refuses any other (R100). -/
theorem exec_eq_next {s : State} (hp : s.phase = .idle) (i : Instr) :
    exec i s = .next
      (if i.wellFormed then runToEnd (s.accept i.opcode (planOf i s.cfg s.ctl)) else s.refuse i.opcode) := by
  rw [exec_eq_operation]
  simp only [operation, hp]

section
variable {P : State → Prop}

theorem ticks_keeps (htick : ∀ s, P s → P (tick s)) (n : Nat) : ∀ s, P s → P (ticks n s) := by
  induction n with
  | zero => exact fun _ h => h
  | succ n ih => exact fun s h => ih (tick s) (htick s h)

theorem runToEnd_keeps (htick : ∀ s, P s → P (tick s)) {s : State} (h : P s) : P (runToEnd s) := by
  unfold runToEnd
  split
  case h_1 => exact h
  case h_2 => exact ticks_keeps htick _ s h

theorem exec_keeps
    (haccept : ∀ s i, s.phase = .idle → i.wellFormed = true → P s → P (s.accept i.opcode (planOf i s.cfg s.ctl)))
    (hrefuse : ∀ s op, s.phase = .idle → P s → P (s.refuse op))
    (htick : ∀ s, P s → P (tick s)) {i : Instr} {s t : State} (hs : P s) (h : exec i s = .next t) : P t := by
  have hp := exec_next_idle h
  cases (exec_eq_next hp i).symm.trans h
  split
  case isTrue hw => exact runToEnd_keeps htick (haccept s i hp hw hs)
  case isFalse => exact hrefuse s _ hp hs

theorem step_keeps
    (htake : ∀ s rest, P s → P { s with requests := rest })
    (haccept : ∀ s i, s.phase = .idle → i.wellFormed = true → P s → P (s.accept i.opcode (planOf i s.cfg s.ctl)))
    (hrefuse : ∀ s op, s.phase = .idle → P s → P (s.refuse op))
    (htick : ∀ s, P s → P (tick s)) {s t : State} (hs : P s) (h : step s = .next t) : P t := by
  obtain ⟨-, -, ⟨run, -, rfl⟩ | ⟨-, -, rfl⟩ | ⟨r, rest, i, -, -, -, hexec⟩ | ⟨r, rest, e, hp, -, -, rfl⟩⟩ :=
    step_cases s t h
  · exact runToEnd_keeps htick hs
  · exact hs
  · exact exec_keeps haccept hrefuse htick (htake s rest hs) hexec
  · exact hrefuse _ _ hp (htake s rest hs)

end

end Sys2Proof.Machine
end

section
/-! PROOF. The registers keep legal values (spec/10_state.md R24 to R28, R32; spec/30_encoding.md R78), and DF is the
configuration's (R24). -/
namespace Sys2Proof.Machine

/-! ## The Control State change of an operation -/

section
variable (i : Instr) (c : ControlState)

@[simp] theorem ctlAfter_df : (ctlAfter i c).df = c.df := by cases i <;> rfl

@[simp] theorem ctlAfter_dm : (ctlAfter i c).dm = c.dm := by cases i <;> rfl

/-- A toggle touches none of the reserved bits of DC (R28). -/
theorem ctlAfter_dc_reserved (h : c.dc &&& 0xF8 = 0) : (ctlAfter i c).dc &&& 0xF8 = 0 := by
  have set : ∀ m : Byte, m &&& 0xF8 = 0 → (c.dc ||| m) &&& 0xF8 = 0 := fun m hm => by
    rw [BitVec.and_or_distrib_right, h, hm]; rfl
  have clear : ∀ m : Byte, (c.dc &&& m) &&& 0xF8 = 0 := fun m => by
    rw [BitVec.and_assoc, BitVec.and_comm m, ← BitVec.and_assoc, h]
    exact BitVec.zero_and
  cases i with
  | display | cursor | blink => exact set _ (by decide)
  | noDisplay | noCursor | noBlink => exact clear _
  | _ => exact h

end

/-- A write number is at least 1, so the K it is saved as is not 0 (R201). -/
theorem saturate_succ_ne_zero (k : Nat) : saturate (k + 1) ≠ 0 := by
  have : min (k + 1) 255 % 2 ^ 8 ≠ 0 := by omega
  rwa [Ne, BitVec.toNat_eq, saturate, BitVec.toNat_ofNat]

/-! ## DF (R24) -/

/-- DF as it is constructed is the function of the configuration. -/
theorem dfOf_eq (c : DeviceConfig) :
    dfOf c = (if 1 < c.lines.toNat then 0x08 else 0x00) ||| (if c.font = 1 ∧ c.lines.toNat = 1 then 0x04 else 0x00) := rfl

/-- N and F are never both set, since F is for one line only. -/
theorem dfOf_values (c : DeviceConfig) : dfOf c = 0x00 ∨ dfOf c = 0x04 ∨ dfOf c = 0x08 := by
  rw [dfOf_eq]
  by_cases hN : 1 < c.lines.toNat
  · simp [hN, show c.lines.toNat ≠ 1 by omega]
  · by_cases hF : c.font = 1 ∧ c.lines.toNat = 1
    · simp [hF]
    · rw [if_neg hN, if_neg hF]
      exact .inl rfl

/-! ## Events change no register but the response's -/

section
variable (s : State)

@[simp] theorem tick_cfg : (tick s).cfg = s.cfg := by
  cases hp : s.phase with
  | idle => rw [tick_idle hp]
  | busy run =>
    obtain ⟨-, h⟩ | ⟨_, _, -, h⟩ | ⟨_, _, -, h⟩ | ⟨_, _, -, h⟩ := tick_cases hp <;> rw [h] <;> rfl

@[simp] theorem tick_ctl : (tick s).ctl = s.ctl := by
  cases hp : s.phase with
  | idle => rw [tick_idle hp]
  | busy run =>
    obtain ⟨-, h⟩ | ⟨_, _, -, h⟩ | ⟨_, _, -, h⟩ | ⟨_, _, -, h⟩ := tick_cases hp <;> rw [h] <;> rfl

end

theorem step_df {s t : State} (h : step s = .next t) : t.ctl.df = s.ctl.df :=
  step_keeps (P := fun u => u.ctl.df = s.ctl.df) (fun _ _ hu => hu)
    (fun u i _ _ hu => by rw [State.accept_ctl, planOf_ctl, ctlAfter_df, hu])
    (fun _ _ _ hu => hu) (fun u hu => by rw [tick_ctl, hu]) rfl h

/-- Settles O3: DF is constructed from the configuration, and neither a body's change nor an event writes it. -/
theorem functionSetRegisterComesFromConfiguration : Obligations.FunctionSetRegisterComesFromConfiguration := by
  unfold Obligations.FunctionSetRegisterComesFromConfiguration
  exact ⟨fun c => ⟨dfOf_eq c, dfOf_values c⟩, fun _ _ => step_df⟩

/-! ## The response (R32, R78) -/

/-- What RSP can hold: K and V zero unless a write failed, and then K at least 1. -/
def Response.Legal (r : Response) : Prop :=
  r.status = 1 ∧ r.k ≠ 0 ∨ (r.status = 0 ∨ r.status = 2) ∧ r.k = 0 ∧ r.v = 0

/-- RSP after an event is as before, zero, or an abort's. -/
theorem tick_rsp_legal {s : State} (h : s.rsp.Legal) : (tick s).rsp.Legal := by
  cases hp : s.phase with
  | idle => rwa [tick_idle hp]
  | busy run =>
    obtain ⟨-, ht⟩ | ⟨_, _, -, ht⟩ | ⟨_, _, -, ht⟩ | ⟨v, rest, -, ht⟩ := tick_cases hp <;> rw [ht]
    · exact .inr ⟨.inl rfl, rfl, rfl⟩
    · exact h
    · exact h
    · exact .inl ⟨rfl, saturate_succ_ne_zero run.k⟩

/-- Settles O5: events write RSP alone, acceptance only the Control State, and a refusal RSP with K and V zero. -/
theorem stepKeepsRegistersLegal : Obligations.StepKeepsRegistersLegal := by
  unfold Obligations.StepKeepsRegistersLegal
  refine fun s t => step_keeps (fun _ _ hs => hs) (fun s i _ _ hs => ?_) (fun s op _ hs => ?_) (fun s hs => ?_)
  · obtain ⟨hcfg, hdf, hdm, hdc, hrsp⟩ := hs
    refine ⟨hcfg, ?_, ?_, ?_, hrsp⟩ <;> rw [State.accept_ctl, planOf_ctl]
    · rwa [ctlAfter_df]
    · rwa [ctlAfter_dm]
    · exact ctlAfter_dc_reserved i s.ctl hdc
  · obtain ⟨hcfg, hdf, hdm, hdc, -⟩ := hs
    exact ⟨hcfg, hdf, hdm, hdc, .inr ⟨.inr rfl, rfl, rfl⟩⟩
  · obtain ⟨hcfg, hdf, hdm, hdc, hrsp⟩ := hs
    refine ⟨?_, ?_, ?_, ?_, tick_rsp_legal hrsp⟩ <;> simpa only [tick_cfg, tick_ctl]

end Sys2Proof.Machine
end

section
/-! PROOF. The trace, the response and REFUSED_MARK keep agreeing (spec/10_state.md R31, R32, R35; spec/30_encoding.md R75,
R77). -/
namespace Sys2Proof.Machine

/-! ## The writes of a script leave RW clear -/

/-- No write of the actions sets RW. -/
def RWClear (as : List Action) : Prop := ∀ v, Action.write v ∈ as → v &&& 0x02 = 0

theorem rwClear_cons {a : Action} {as : List Action} : RWClear (a :: as) → RWClear as :=
  fun h v hv => h v (List.mem_cons_of_mem _ hv)

theorem rwClear_append {as bs : List Action} (ha : RWClear as) (hb : RWClear bs) : RWClear (as ++ bs) :=
  fun v hv => (List.mem_append.mp hv).elim (ha v) (hb v)

/-- The three bytes of a pulse differ in EN only. -/
theorem rwClear_pulse {x : Byte} (hx : x &&& 0x06 = 0) : RWClear (pulse x) := by
  have all : ∀ y : Byte, y &&& 0x06 = 0 → y &&& 0x02 = 0 ∧ (y ||| EN_MASK) &&& 0x02 = 0 := by decide +kernel
  obtain ⟨low, high⟩ := all x hx
  intro v hv
  simp only [pulse, clearEN_eq x hx, List.mem_cons, Action.write.injEq, reduceCtorEq, List.not_mem_nil, false_or,
    or_false] at hv
  obtain rfl | rfl | rfl := hv
  · exact low
  · exact high
  · exact low

theorem rwClear_sendByte (c : ControlState) (v : Byte) (m : SendMode) : RWClear (sendByte c v m) :=
  rwClear_append (rwClear_pulse (composed_clear v m c.bl)) (rwClear_pulse (composed_clear (v <<< 4) m c.bl))

theorem rwClear_sendBytes (c : ControlState) (vs : List Byte) (m : SendMode) : RWClear (sendBytes c vs m) := by
  induction vs with
  | nil => exact fun _ hv => absurd hv List.not_mem_nil
  | cons v vs ih => exact rwClear_append (rwClear_sendByte c v m) ih

/-- The actions of a well-formed operation never set RW (R76, R77). -/
theorem rwClear_planOf {i : Instr} (hw : i.wellFormed = true) (cfg : DeviceConfig) (c : ControlState) :
    RWClear (planOf i cfg c).script := by
  cases i with
  | init =>
    have settle : RWClear [.wait .initSettle] := fun v hv => by simp at hv
    have send := fun v => rwClear_sendByte c v .command
    exact rwClear_append (rwClear_append (rwClear_append (rwClear_append (rwClear_append (rwClear_append
      (send _) (send _)) (send _)) (send _)) (send _)) (send _)) settle
  | writeLine n p => exact rwClear_sendBytes c _ .data
  | pulse x => exact rwClear_pulse (by simpa [Instr.wellFormed, composedClear] using hw)
  | _ => exact rwClear_sendByte _ _ _

/-! ## What an appended event says -/

@[simp] theorem writesLegal_append (a : BusAddr) (es fs : List Event) :
    writesLegal a (es ++ fs) ↔ writesLegal a es ∧ writesLegal a fs := by
  induction es with
  | nil => simp [writesLegal]
  | cons e es ih => cases e <;> simp [writesLegal, ih, and_assoc]

@[simp] theorem lastStatus_append (es fs : List Event) (st : BitVec 2) :
    lastStatus (es ++ fs) st = lastStatus fs (lastStatus es st) := by
  induction es generalizing st with
  | nil => rfl
  | cons e es ih => cases e <;> simp [lastStatus, ih]

section
variable {s : State}

/-- An operation that ends: its END gives the last status, and is a refusal exactly where the mark is set with it. -/
theorem State.TraceAgrees.finish (h : s.TraceAgrees) (op : Byte) (st : BitVec 2) (kk vv : Byte) (hst : 2#2 ≠ st) :
    (s.finish op st kk vv).TraceAgrees := by
  obtain ⟨hwrites, -, hmark, -⟩ := h
  refine ⟨?_, ?_, ?_, fun run hrun => by cases hrun⟩
  · simpa [writesLegal] using hwrites
  · simp [lastStatus]
  · simpa [hst] using hmark

theorem State.TraceAgrees.refuse (h : s.TraceAgrees) (op : Byte) : (s.refuse op).TraceAgrees := by
  obtain ⟨hwrites, -, -, -⟩ := h
  refine ⟨?_, ?_, ?_, fun run hrun => by cases hrun⟩
  · simpa [writesLegal] using hwrites
  · simp [lastStatus]
  · simp

theorem State.TraceAgrees.busWait (h : s.TraceAgrees) (kind : WaitKind) {run : Running} (hrun : RWClear run.todo) :
    State.TraceAgrees { s.busWait kind with phase := .busy run } := by
  obtain ⟨hwrites, hstatus, hmark, -⟩ := h
  refine ⟨?_, ?_, ?_, fun run' hrun' => by cases hrun'; exact hrun⟩
  · simpa [writesLegal] using hwrites
  · simpa [lastStatus] using hstatus
  · simpa using hmark

theorem State.TraceAgrees.busWrite (h : s.TraceAgrees) {v : Byte} (hv : v &&& 0x02 = 0) (r : Answer) {run : Running}
    (hrun : RWClear run.todo) : State.TraceAgrees { s.busWrite v r with phase := .busy run } := by
  obtain ⟨hwrites, hstatus, hmark, -⟩ := h
  refine ⟨?_, ?_, ?_, fun run' hrun' => by cases hrun'; exact hrun⟩
  · simpa [writesLegal] using ⟨hwrites, hv⟩
  · simpa [lastStatus] using hstatus
  · simpa using hmark

theorem State.TraceAgrees.tick (h : s.TraceAgrees) : (tick s).TraceAgrees := by
  cases hp : s.phase with
  | idle => rwa [tick_idle hp]
  | busy run =>
    have htodo : RWClear run.todo := by
      obtain ⟨-, -, -, hbusy⟩ := h
      exact hbusy run hp
    obtain ⟨-, ht⟩ | ⟨kind, rest, hr, ht⟩ | ⟨v, rest, hr, ht⟩ | ⟨v, rest, hr, ht⟩ := tick_cases hp <;> rw [ht]
    · exact h.finish _ _ _ _ (by decide)
    · exact h.busWait kind (rwClear_cons (hr ▸ htodo))
    · exact h.busWrite (htodo v (by simp [hr])) .ok (rwClear_cons (hr ▸ htodo))
    · exact (h.busWrite (run := run) (htodo v (by simp [hr])) .fail htodo).finish _ _ _ _ (by decide)

end

/-- Settles O6: acceptance brings in actions with RW clear, and each event and each END keeps what the trace says. -/
theorem stepKeepsTraceAgreeing : Obligations.StepKeepsTraceAgreeing := by
  unfold Obligations.StepKeepsTraceAgreeing
  refine fun s t => step_keeps (fun _ _ hs => hs) (fun s i _ hw hs => ?_) (fun s op _ hs => hs.refuse op)
    (fun s hs => hs.tick)
  obtain ⟨hwrites, hstatus, hmark, -⟩ := hs
  exact ⟨hwrites, hstatus, hmark, fun run hrun => by cases hrun; exact rwClear_planOf hw s.cfg s.ctl⟩

end Sys2Proof.Machine
end

section
/-! PROOF. The sequencer's position and write counter (spec/10_state.md R21; spec/40_facade.md R100). -/
namespace Sys2Proof.Machine

/-! ## The events since the last END -/

section
variable (acc es : List Event)

theorem sinceEndFrom_append (fs : List Event) : sinceEndFrom acc (es ++ fs) = sinceEndFrom (sinceEndFrom acc es) fs := by
  induction es generalizing acc with
  | nil => rfl
  | cons e es ih => cases e <;> simp [sinceEndFrom, ih]

@[simp] theorem sinceEnd_append_write (a : BusAddr) (v : Byte) (r : Answer) :
    sinceEnd (es ++ [.write a v r]) = sinceEnd es ++ [.write a v r] := sinceEndFrom_append [] es _

@[simp] theorem sinceEnd_append_wait (kind : WaitKind) :
    sinceEnd (es ++ [.wait kind]) = sinceEnd es ++ [.wait kind] := sinceEndFrom_append [] es _

@[simp] theorem sinceEnd_append_ended (op : Byte) (st : BitVec 2) : sinceEnd (es ++ [.ended op st]) = [] :=
  sinceEndFrom_append [] es _

end

/-! ## Counting them -/

section
variable {s : State}

theorem State.positionAgrees_idle_iff (hp : s.phase = .idle) : s.PositionAgrees ↔ sinceEnd s.trace = [] := by
  simp only [State.PositionAgrees, hp]

theorem State.positionAgrees_busy_iff {run : Running} (hp : s.phase = .busy run) :
    s.PositionAgrees ↔
      run.pos = (sinceEnd s.trace).length ∧ run.k = (writesOf (sinceEnd s.trace)).length := by
  simp only [State.PositionAgrees, hp]

/-- After an END the count starts again. -/
theorem State.finish_positionAgrees (s : State) (op : Byte) (st : BitVec 2) (kk vv : Byte) :
    (s.finish op st kk vv).PositionAgrees :=
  (State.positionAgrees_idle_iff rfl).mpr (sinceEnd_append_ended s.trace op st)

theorem State.PositionAgrees.accept (h : s.PositionAgrees) (hp : s.phase = .idle) (op : Byte) (p : Plan) :
    (s.accept op p).PositionAgrees := by
  rw [State.positionAgrees_idle_iff hp] at h
  rw [State.positionAgrees_busy_iff (State.accept_phase s op p), State.accept_trace, h]
  exact ⟨rfl, rfl⟩

theorem State.PositionAgrees.tick (h : s.PositionAgrees) : (tick s).PositionAgrees := by
  cases hp : s.phase with
  | idle => rwa [tick_idle hp]
  | busy run =>
    obtain ⟨hpos, hk⟩ := (State.positionAgrees_busy_iff hp).mp h
    obtain ⟨-, ht⟩ | ⟨kind, rest, -, ht⟩ | ⟨v, rest, -, ht⟩ | ⟨v, rest, -, ht⟩ := tick_cases hp <;> rw [ht]
    · exact State.finish_positionAgrees ..
    · rw [State.positionAgrees_busy_iff rfl]
      simp [hpos, hk, writesOf]
    · rw [State.positionAgrees_busy_iff rfl]
      simp [hpos, hk, writesOf]
    · exact State.finish_positionAgrees ..

end

/-- Settles O7: acceptance starts both counts, a write adds to both, a wait to the position, and an END ends them. -/
theorem sequencerPositionCountsEvents : Obligations.SequencerPositionCountsEvents := by
  unfold Obligations.SequencerPositionCountsEvents
  refine ⟨fun s op p hp hs => hs.accept hp op p, fun s hs => hs.tick, fun s t => ?_⟩
  exact step_keeps (fun _ _ hs => hs) (fun s i hp _ hs => hs.accept hp _ _)
    (fun s op _ _ => State.finish_positionAgrees ..) (fun s hs => hs.tick)

end Sys2Proof.Machine
end

section
/-! PROOF. The invariants at construction (spec/10_state.md R38; spec/70_reset_and_hazards.md R240). -/
namespace Sys2Proof.Machine

/-- Settles O1: `construct` answers in the ranges, its registers are wide enough, and the rest is constant. -/
theorem constructionGivesResetValues : Obligations.ConstructionGivesResetValues := by
  unfold Obligations.ConstructionGivesResetValues
  intro addr cols lines font haddr hcols hcols' hlines hlines' hfont
  refine ⟨_, construct_eq_some_iff.mpr ⟨⟨haddr, hcols, hcols', hlines, hlines', hfont⟩, rfl⟩,
    configOf_addr_toNat haddr, configOf_cols_toNat hcols', configOf_lines_toNat hlines', configOf_font_toNat hfont, ?_,
    rfl, rfl, rfl, rfl, rfl, rfl, rfl, rfl, rfl⟩
  rw [State.constructed_ctl, dfOf_eq, configOf_lines_toNat hlines']
  simp only [configOf_font_eq_one_iff hfont]

section
variable (c : DeviceConfig)

theorem State.constructed_registersLegal (hc : c.legal = true) : (State.constructed c).RegistersLegal :=
  ⟨hc, dfOf_eq c, rfl, (by decide : DC_RESET &&& 0xF8 = 0), .inr ⟨.inl rfl, rfl, rfl⟩⟩

theorem State.constructed_traceAgrees : (State.constructed c).TraceAgrees :=
  ⟨trivial, rfl, by simp, fun run hrun => by cases hrun⟩

theorem State.constructed_positionAgrees : (State.constructed c).PositionAgrees :=
  (State.positionAgrees_idle_iff rfl).mpr rfl

end

/-- Settles O4: only the first invariant asks for a legal configuration, and that of `State.reset` is one. -/
theorem resetMeetsTheInvariants : Obligations.ResetMeetsTheInvariants := by
  unfold Obligations.ResetMeetsTheInvariants
  have all : ∀ c : DeviceConfig, c.legal = true → (State.constructed c).RegistersLegal ∧
      (State.constructed c).TraceAgrees ∧ (State.constructed c).PositionAgrees := fun c hc =>
    ⟨State.constructed_registersLegal c hc, State.constructed_traceAgrees c, State.constructed_positionAgrees c⟩
  exact ⟨all, all _ (by decide)⟩

end Sys2Proof.Machine
end

section
/-! PROOF. Decoder and encoder are inverse (spec/30_encoding.md R70, R72, R73), and the decoder takes exactly the words of the
opcode table (R87). -/
namespace Sys2Proof

/-! ## A request is its fields -/

theorem request_eq_of_fields {r : Request} {op a b : Byte} {p : List Byte} (hop : r.op = op) (ha : r.a = a)
    (hb : r.b = b) (hp : r.payload = p) : Request.mk (mkWord op a b) p = r := by
  obtain ⟨w, q⟩ := r
  subst hop ha hb hp
  exact congrArg (Request.mk · q) (mkWord_fields ⟨w, q⟩)

@[simp] theorem op_encode (i : Instr) : (encode i).op = i.opcode := by
  cases i <;> exact op_mkWord ..

/-! ## Decoding what is encoded -/

/-- The opcode of an operation selects its format, and the format reads the operands back. -/
theorem decodeFields_encode (i : Instr) : decodeFields (encode i) = .ok i := by
  unfold decodeFields
  rw [op_encode]
  cases i with
  | writeLine n p => exact decodeLine_eq_ok_iff.mpr ⟨b_mkWord .., congrArg (Instr.writeLine · p) (a_mkWord ..)⟩
  | setCursor col row => exact decodeAB_eq_ok_iff.mpr ⟨rfl, congrArg₂ Instr.setCursor (a_mkWord ..) (b_mkWord ..)⟩
  | setBacklight on => exact decodeA_eq_ok_iff.mpr ⟨b_mkWord .., rfl, congrArg Instr.setBacklight (a_mkWord ..)⟩
  | sendCmd v => exact decodeA_eq_ok_iff.mpr ⟨b_mkWord .., rfl, congrArg Instr.sendCmd (a_mkWord ..)⟩
  | sendData v => exact decodeA_eq_ok_iff.mpr ⟨b_mkWord .., rfl, congrArg Instr.sendData (a_mkWord ..)⟩
  | pulse x => exact decodeA_eq_ok_iff.mpr ⟨b_mkWord .., rfl, congrArg Instr.pulse (a_mkWord ..)⟩
  | _ => exact decodeNone_eq_ok_iff.mpr ⟨a_mkWord .., b_mkWord .., rfl, rfl⟩

theorem decode_of_decodeFields {r : Request} {i : Instr} (hd : decodeFields r = .ok i) (hw : i.wellFormed = true) :
    decode r = .ok i := by
  simp only [decode, hd, hw, if_true]

theorem decode_encode {i : Instr} (hw : i.wellFormed = true) : decode (encode i) = .ok i :=
  decode_of_decodeFields (decodeFields_encode i) hw

/-- Settles O47: the fields give the operation back, and the constraints are those it meets. -/
theorem decodeOfEncode : Obligations.DecodeOfEncode := by
  unfold Obligations.DecodeOfEncode
  exact fun i => decode_encode

/-! ## Encoding what is decoded, format by format -/

section
variable {r : Request} {i j : Instr}

theorem encode_of_decodeNone (h : decodeNone r i = .ok j) (hop : r.op.toNat = i.opcode.toNat)
    (he : encode i = ⟨mkWord i.opcode 0 0, []⟩) : encode j = r := by
  obtain ⟨ha, hb, hp, rfl⟩ := decodeNone_eq_ok_iff.mp h
  exact he.trans (request_eq_of_fields (BitVec.eq_of_toNat_eq hop) ha hb hp)

theorem encode_of_decodeA {f : Byte → Instr} (h : decodeA r f = .ok j) (hop : r.op.toNat = (f r.a).opcode.toNat)
    (he : encode (f r.a) = ⟨mkWord (f r.a).opcode r.a 0, []⟩) : encode j = r := by
  obtain ⟨hb, hp, rfl⟩ := decodeA_eq_ok_iff.mp h
  exact he.trans (request_eq_of_fields (BitVec.eq_of_toNat_eq hop) rfl hb hp)

theorem encode_of_decodeFields (h : decodeFields r = .ok i) : encode i = r := by
  unfold decodeFields at h
  split at h
  case h_2 hop =>
    obtain ⟨hb, rfl⟩ := decodeLine_eq_ok_iff.mp h
    exact request_eq_of_fields (BitVec.eq_of_toNat_eq hop) rfl hb rfl
  case h_3 hop =>
    obtain ⟨hp, rfl⟩ := decodeAB_eq_ok_iff.mp h
    exact request_eq_of_fields (BitVec.eq_of_toNat_eq hop) rfl rfl hp
  case h_6 hop | h_13 hop | h_14 hop | h_15 hop => exact encode_of_decodeA h hop rfl
  case h_1 hop | h_4 hop | h_5 hop | h_7 hop | h_8 hop | h_9 hop | h_10 hop | h_11 hop | h_12 hop =>
    exact encode_of_decodeNone h hop rfl
  case h_16 => cases h

theorem encode_of_decode (h : decode r = .ok i) : encode i = r := encode_of_decodeFields (decodeFields_of_decode h)

end

/-- Settles O48: each format's fields are the whole request, so nothing is lost in reading them. -/
theorem encodeOfDecode : Obligations.EncodeOfDecode := by
  unfold Obligations.EncodeOfDecode
  exact fun r i h => ⟨Machine.decode_wellFormed h, encode_of_decode h⟩

/-! ## The rows of the opcode table (R87) -/

/-- The bits of field A that an operation's row asks to be 0. -/
def Instr.zeroA : Instr → Byte
  | .writeLine _ _ | .setCursor _ _ | .sendCmd _ | .sendData _ => 0x00
  | .setBacklight _ => 0xFE
  | .pulse _ => 0x06
  | .init | .clear | .home | .display | .noDisplay | .cursor | .noCursor | .blink | .noBlink => 0xFF

/-- The bits of field B that an operation's row asks to be 0. -/
def Instr.zeroB : Instr → Byte
  | .setCursor _ _ => 0x00
  | .init | .writeLine _ _ | .clear | .home | .setBacklight _ | .display | .noDisplay | .cursor | .noCursor | .blink
  | .noBlink | .sendCmd _ | .sendData _ | .pulse _ => 0xFF

/-- A row fixes the opcode and asks for zeros in A and B. -/
theorem row_eq (i : Instr) : i.row = ⟨mkWord 0xFF i.zeroA i.zeroB, mkWord i.opcode 0 0⟩ := by
  cases i
  all_goals simp only [Instr.row, Instr.zeroA, Instr.zeroB, Instr.opcode]
  all_goals decide

theorem mkWord_inj {op a b op' a' b' : Byte} :
    mkWord op a b = mkWord op' a' b' ↔ op = op' ∧ a = a' ∧ b = b' := by
  refine ⟨fun h => ?_, fun ⟨hop, ha, hb⟩ => by rw [hop, ha, hb]⟩
  have h : Request.mk (mkWord op a b) [] = ⟨mkWord op' a' b', []⟩ := by rw [h]
  exact ⟨by simpa using congrArg Request.op h, by simpa using congrArg Request.a h,
    by simpa using congrArg Request.b h⟩

theorem mkWord_and (op a b op' a' b' : Byte) :
    mkWord op a b &&& mkWord op' a' b' = mkWord (op &&& op') (a &&& a') (b &&& b') :=
  BitVec.and_append.trans (congrArg (· ++ (b &&& b')) BitVec.and_append)

/-- A word matches the row of an operation exactly where it has the opcode and the zeros. -/
theorem row_covers_iff (i : Instr) (r : Request) :
    i.row.covers r.word = true ↔ r.op = i.opcode ∧ r.a &&& i.zeroA = 0 ∧ r.b &&& i.zeroB = 0 := by
  have hop : r.op &&& 0xFF = r.op := BitVec.and_allOnes
  rw [row_eq, TableRow.covers, beq_iff_eq, ← mkWord_fields r, mkWord_and, mkWord_inj, hop]

/-- The rows of the table are those of the operations, whatever their operands. -/
theorem mem_tableRows_iff (t : TableRow) : t ∈ tableRows ↔ ∃ i : Instr, t = i.row := by
  constructor
  · intro ht
    obtain ⟨i, -, rfl⟩ := List.mem_map.mp (show t ∈ [Instr.init, .writeLine 0 [], .setCursor 0 0, .clear, .home,
      .setBacklight 0, .display, .noDisplay, .cursor, .noCursor, .blink, .noBlink, .sendCmd 0, .sendData 0,
      .pulse 0].map Instr.row from ht)
    exact ⟨i, rfl⟩
  · rintro ⟨i, rfl⟩
    cases i <;> simp [tableRows, Instr.row]

/-- The row of an encoded well-formed operation, from the laws of each operation. -/
theorem row_covers_encode {i : Instr} (hw : i.wellFormed = true) : i.row.covers (encode i).word = true := by
  cases i with
  | init => exact Laws.TableRow.init hw
  | writeLine n p => exact Laws.TableRow.writeLine n p hw
  | setCursor col row => exact Laws.TableRow.setCursor col row hw
  | clear => exact Laws.TableRow.clear hw
  | home => exact Laws.TableRow.home hw
  | setBacklight on => exact Laws.TableRow.setBacklight on hw
  | display => exact Laws.TableRow.display hw
  | noDisplay => exact Laws.TableRow.noDisplay hw
  | cursor => exact Laws.TableRow.cursor hw
  | noCursor => exact Laws.TableRow.noCursor hw
  | blink => exact Laws.TableRow.blink hw
  | noBlink => exact Laws.TableRow.noBlink hw
  | sendCmd v => exact Laws.TableRow.sendCmd v hw
  | sendData v => exact Laws.TableRow.sendData v hw
  | pulse x => exact Laws.TableRow.pulse x hw

/-- The operation of the same kind with a request's operands. -/
def Instr.withOperands (i : Instr) (r : Request) : Instr :=
  match i with
  | .writeLine _ _ => .writeLine r.a r.payload
  | .setCursor _ _ => .setCursor r.a r.b
  | .setBacklight _ => .setBacklight r.a
  | .sendCmd _ => .sendCmd r.a
  | .sendData _ => .sendData r.a
  | .pulse _ => .pulse r.a
  | .init | .clear | .home | .display | .noDisplay | .cursor | .noCursor | .blink | .noBlink => i

section
variable {i : Instr} {r : Request}

/-- The zeros of a row are the constraints of R73 on the operands. -/
theorem withOperands_wellFormed (ha : r.a &&& i.zeroA = 0)
    (hp : r.payload.length = if i.opcode = Opcode.writeLine then r.a.toNat else 0) :
    (i.withOperands r).wellFormed = true := by
  cases i with
  | writeLine n p => exact (Machine.writeLine_wellFormed_iff _ _).mpr hp
  | setBacklight on =>
    have all : ∀ a : Byte, a &&& 0xFE = 0 → (Instr.setBacklight a).wellFormed = true := by decide +kernel
    exact all r.a ha
  | pulse x => exact beq_iff_eq.mpr ha
  | _ => rfl

/-- A request on an operation's row with the payload R73 asks for is that operation with the request's operands. -/
theorem encode_withOperands (hop : r.op = i.opcode) (ha : r.a &&& i.zeroA = 0) (hb : r.b &&& i.zeroB = 0)
    (hp : r.payload.length = if i.opcode = Opcode.writeLine then r.a.toNat else 0) :
    encode (i.withOperands r) = r := by
  have zero : ∀ x : Byte, x &&& 0xFF = 0 → x = 0 := fun x hx => BitVec.and_allOnes.symm.trans hx
  cases i with
  | writeLine n p => exact request_eq_of_fields hop rfl (zero _ hb) rfl
  | setCursor col row => exact request_eq_of_fields hop rfl rfl (List.length_eq_zero_iff.mp hp)
  | setBacklight | sendCmd | sendData | pulse =>
    exact request_eq_of_fields hop rfl (zero _ hb) (List.length_eq_zero_iff.mp hp)
  | _ => exact request_eq_of_fields hop (zero _ ha) (zero _ hb) (List.length_eq_zero_iff.mp hp)

end

/-- Settles O50: a request decodes exactly where it is the encoding of a well-formed operation, and those are the words of
the rows. -/
theorem decodeTakesExactlyTheTableRows : Obligations.DecodeTakesExactlyTheTableRows := by
  unfold Obligations.DecodeTakesExactlyTheTableRows
  intro r
  constructor
  · rintro ⟨i, h⟩
    have hrow := row_covers_encode (Machine.decode_wellFormed h)
    rw [encode_of_decode h] at hrow
    exact ⟨⟨i.row, (mem_tableRows_iff _).mpr ⟨i, rfl⟩, hrow⟩, payload_length_of_decode h⟩
  · rintro ⟨⟨t, ht, hrow⟩, hp⟩
    obtain ⟨i, rfl⟩ := (mem_tableRows_iff t).mp ht
    obtain ⟨hop, ha, hb⟩ := (row_covers_iff i r).mp hrow
    rw [hop] at hp
    refine ⟨i.withOperands r, ?_⟩
    have hd := decode_encode (withOperands_wellFormed ha hp)
    rwa [encode_withOperands hop ha hb hp] at hd

/-- Two rows that share a word agree on the bits that both fix. -/
theorem pattern_and_mask_of_covers {t u : TableRow} {w : ReqWord} (ht : t.covers w = true) (hu : u.covers w = true) :
    t.pattern &&& u.mask = u.pattern &&& t.mask := by
  rw [TableRow.covers, beq_iff_eq] at ht hu
  rw [← ht, ← hu, BitVec.and_assoc, BitVec.and_assoc, BitVec.and_comm t.mask]

/-- Settles O51: any two rows differ in a bit that both fix. -/
theorem tableRowsAreDisjoint : Obligations.TableRowsAreDisjoint := by
  unfold Obligations.TableRowsAreDisjoint
  have differ : tableRows.Pairwise fun t u => t.pattern &&& u.mask ≠ u.pattern &&& t.mask := by decide
  exact differ.imp fun h w ⟨ht, hu⟩ => h (pattern_and_mask_of_covers ht hu)

/-- Settles O53: each word is written out, so the decoder evaluates on it. -/
theorem writtenOutWordsDecode : Obligations.WrittenOutWordsDecode := by
  unfold Obligations.WrittenOutWordsDecode
  decide

end Sys2Proof
end

section
/-! PROOF. Words and bytes bit by bit: the response word (spec/30_encoding.md R78), the nibble law (spec/41_byte_sender.md R140,
R141) and the address byte of SET_CURSOR (spec/40_facade.md R107, R108). -/
namespace Sys2Proof.Machine

/-- Settles O46: the word is the three fields, one after the other. -/
theorem responseWordFields : Obligations.ResponseWordFields := by
  unfold Obligations.ResponseWordFields
  exact fun r => ⟨(BitVec.extractLsb'_append_eq_of_le (by decide)).trans BitVec.extractLsb'_append_eq_left,
    (BitVec.extractLsb'_append_eq_of_le (by decide)).trans BitVec.extractLsb'_append_eq_right,
    BitVec.extractLsb'_append_eq_right⟩

/-! ## The composed bytes (R141) -/

section
variable (b : Byte) (m : SendMode) (bl : BitVec 1)

theorem composed_highNibbles :
    (highComposed m.bits b bl).extractLsb' 4 4 = b.extractLsb' 4 4 ∧
      (lowComposed m.bits b bl).extractLsb' 4 4 = b.extractLsb' 0 4 := by
  revert b bl
  cases m <;> decide +kernel

theorem composed_lowNibbles : highComposed m.bits b bl &&& 0x0F = lowComposed m.bits b bl &&& 0x0F := by
  revert b bl
  cases m <;> decide +kernel

/-- The Byte Sender sends a byte intact (R140). -/
theorem composed_intact : (highComposed m.bits b bl &&& 0xF0) ||| (lowComposed m.bits b bl >>> 4) = b := by
  revert b bl
  cases m <;> decide +kernel

end

/-- Settles O45: the formulas are the encoder's own, and the rest is about the composed bytes. -/
theorem nibbleLaw : Obligations.NibbleLaw := by
  unfold Obligations.NibbleLaw
  intro k b m
  obtain ⟨hhigh, hlow⟩ := composed_highNibbles b m k.bl
  exact ⟨by cases m <;> rfl, by cases m <;> rfl, hhigh, hlow, composed_clear b m k.bl, composed_clear (b <<< 4) m k.bl,
    composed_lowNibbles b m k.bl, (composed_intact b m k.bl).symm⟩

/-! ## The address byte (R107, R108) -/

theorem clampRow_le_three {c : DeviceConfig} (hc : c.legal = true) (row : Nat) : clampRow c.lines.toNat row ≤ 3 :=
  Nat.le_of_lt_succ (clampRow_lt_four hc row)

/-- Settles O43: with a legal configuration the clamped row has an entry in the Row Offset Table. -/
theorem rowIsClamped : Obligations.RowIsClamped := by
  unfold Obligations.RowIsClamped
  exact fun c row hc => ⟨rfl, clampRow_le_three hc _, rowOffset_eq_getD (clampRow_lt_four hc _)⟩

theorem rowOffset_le {r : Nat} (hr : r < 4) : rowOffset r ≤ 0x54 := by
  interval_cases r <;> decide

/-- Cutting a number to a byte and shifting it commute: only bits that fall off are lost. -/
theorem ofNat_shiftLeft (w n k : Nat) : BitVec.ofNat w (n <<< k) = BitVec.ofNat w n <<< k := by
  refine BitVec.eq_of_getLsbD_eq fun i hi => ?_
  simp only [BitVec.getLsbD_ofNat, BitVec.getLsbD_shiftLeft, Nat.testBit_shiftLeft, hi, decide_true, Bool.true_and]
  by_cases hk : i < k
  · simp [hk]
  · simp [hk, Nat.not_lt.mp hk, show i - k < w by omega]

/-- Settles O44: the offsets are at most 0x54, and cutting the sum to a byte commutes with shift and mask. -/
theorem cursorSumIsCutByTheMasks : Obligations.CursorSumIsCutByTheMasks := by
  unfold Obligations.CursorSumIsCutByTheMasks
  intro c k col row hc
  have hoffset := rowOffset_le (clampRow_lt_four hc row.toNat)
  refine ⟨by have := col.isLt; omega, BitVec.toNat_ofNat _ _, ?_, ?_⟩
  · rw [BitVec.ofNat_and]
    exact congrArg (· ||| blv k.bl) BitVec.zero_or
  · rw [BitVec.ofNat_and, ofNat_shiftLeft]
    exact congrArg (· ||| blv k.bl) BitVec.zero_or

end Sys2Proof.Machine
end

section
/-! PROOF. The step by its branches (spec/10_state.md R36; spec/30_encoding.md R71; spec/60_exceptions.md R204, R216), and the
response event by event (R32). -/
namespace Sys2Proof.Machine

section
variable {s : State}

/-- What an IDLE block does with a request that decodes (R71). -/
theorem step_of_decode_ok {r : Request} {rest : List Request} {i : Instr} (hl : s.cfg.legal = true)
    (hs : s.rsp.status ≠ 3) (hp : s.phase = .idle) (hr : s.requests = r :: rest) (hd : decode r = .ok i) :
    step s = exec i { s with requests := rest } := by
  simp only [step, hl, hs, hp, hr, hd, Bool.true_eq_false, if_false]

theorem step_of_no_request (hl : s.cfg.legal = true) (hs : s.rsp.status ≠ 3) (hp : s.phase = .idle)
    (hr : s.requests = []) : step s = .next s := by
  simp only [step, hl, hs, hp, hr, Bool.true_eq_false, if_false]

theorem step_of_busy {run : Running} (hl : s.cfg.legal = true) (hs : s.rsp.status ≠ 3) (hp : s.phase = .busy run) :
    step s = .next (runToEnd s) := by
  simp only [step, hl, hs, hp, Bool.true_eq_false, if_false]

/-- A state of a block has a next state. -/
theorem step_next (hl : s.cfg.legal = true) (hs : s.rsp.status ≠ 3) : ∃ t, step s = .next t := by
  cases hp : s.phase with
  | busy run => exact ⟨_, step_of_busy hl hs hp⟩
  | idle =>
    cases hr : s.requests with
    | nil => exact ⟨_, step_of_no_request hl hs hp hr⟩
    | cons r rest =>
      cases hd : decode r with
      | ok i => exact ⟨_, (step_of_decode_ok hl hs hp hr hd).trans (exec_eq_next (by exact hp) i)⟩
      | error e => exact ⟨_, step_of_decode_error hl hs hp hr hd⟩

/-- A state of no block has a fault. -/
theorem step_fault (h : s.cfg.legal = false ∨ s.rsp.status = 3) : ∃ f, step s = .fault f := by
  by_cases hl : s.cfg.legal = false
  · exact ⟨_, if_pos hl⟩
  · exact ⟨_, (if_neg hl).trans (if_pos (h.resolve_left hl))⟩

end

/-- Settles O8: the branch of `step` for a request that decodes. -/
theorem stepRunsTheDecodedOperation : Obligations.StepRunsTheDecodedOperation := by
  unfold Obligations.StepRunsTheDecodedOperation
  exact fun s r rest i => step_of_decode_ok

/-- Settles O9: the branch of `step` for a request that does not decode, which refuses it. -/
theorem stepRefusesWhatDoesNotDecode : Obligations.StepRefusesWhatDoesNotDecode := by
  unfold Obligations.StepRefusesWhatDoesNotDecode
  exact fun s r rest e => step_of_decode_error

/-- Settles O10: the frame of R100 checks the constraints before anything else. -/
theorem illFormedOperationEndsRefused : Obligations.IllFormedOperationEndsRefused := by
  unfold Obligations.IllFormedOperationEndsRefused
  exact fun i s => exec_of_not_wellFormed

/-- Settles O12: a state either meets both checks and has a next state, or fails one and faults. -/
theorem stepStopsOnlyOnImpossibleStates : Obligations.StepStopsOnlyOnImpossibleStates := by
  unfold Obligations.StepStopsOnlyOnImpossibleStates
  intro s
  by_cases h : s.cfg.legal = false ∨ s.rsp.status = 3
  · obtain ⟨f, hf⟩ := step_fault h
    exact ⟨iff_of_true ⟨f, hf⟩ h, fun r hr => by cases hf.symm.trans hr⟩
  · obtain ⟨hl, hs⟩ := not_or.mp h
    obtain ⟨t, ht⟩ := step_next (Bool.not_eq_false _ ▸ hl) hs
    exact ⟨iff_of_false (fun ⟨f, hf⟩ => by cases ht.symm.trans hf) h, fun r hr => by cases ht.symm.trans hr⟩

/-- Settles O11: the branches of `step` without a decoder, and what an operation in progress comes to. -/
theorem stepHoldsWhenIdleAndFinishesWhenBusy : Obligations.StepHoldsWhenIdleAndFinishesWhenBusy := by
  unfold Obligations.StepHoldsWhenIdleAndFinishesWhenBusy
  refine ⟨fun s => step_of_no_request, fun s run hl hs hp => ?_, fun i s run => exec_busy i s run⟩
  refine ⟨runToEnd s, (runToEnd s).rsp.status, step_of_busy hl hs hp, ?_⟩
  obtain ⟨h, -⟩ | ⟨m, v, -, -, h⟩ := runToEnd_cases s run hp <;> rw [h]
  · exact ⟨rfl, rfl, rfl, rfl, _, busEvents_scriptEvents s.cfg.addr run.todo, rfl⟩
  · exact ⟨rfl, rfl, rfl, rfl, _, busEvents_cutAtWrite s.cfg.addr run.todo m, rfl⟩

/-- Settles O30: an event either leaves the block BUSY or is the operation's last, with the END. -/
theorem responseWrittenAtEndOnly : Obligations.ResponseWrittenAtEndOnly := by
  unfold Obligations.ResponseWrittenAtEndOnly
  refine ⟨fun s run hp => ?_, fun s => tick_idle⟩
  obtain ⟨-, h⟩ | ⟨kind, rest, -, h⟩ | ⟨v, rest, -, h⟩ | ⟨v, rest, -, h⟩ := tick_cases hp <;> rw [h]
  · exact .inr ⟨rfl, [], 0, by simp [STATUS_OK], rfl, rfl, .inl rfl⟩
  · exact .inl ⟨_, rfl, rfl, .wait kind, by simp, rfl⟩
  · exact .inl ⟨_, rfl, rfl, .write s.cfg.addr v .ok, by simp, rfl⟩
  · exact .inr ⟨rfl, [.write s.cfg.addr v .fail], 1, by simp, rfl, rfl, .inr rfl⟩

end Sys2Proof.Machine
end

section
/-! PROOF. The primitives of the request port for a command and a pulse (spec/41_byte_sender.md R143; spec/42_pulse.md R161,
R166). -/
namespace Sys2Proof.Machine

theorem encode_sendCmd (v : Byte) : encode (.sendCmd v) = ⟨(0x10 : Byte) ++ v ++ (0x00 : Byte), []⟩ := rfl

/-- Settles O21: SEND_CMD is never refused and sends its one byte as a command. -/
theorem sendCmdRuns : Obligations.SendCmdRuns := by
  unfold Obligations.SendCmdRuns
  exact ⟨encode_sendCmd, fun s v hp => runsAs_oneByte (i := .sendCmd v) hp rfl rfl⟩

theorem encode_pulse (x : Byte) : encode (.pulse x) = ⟨(0x12 : Byte) ++ x ++ (0x00 : Byte), []⟩ := rfl

theorem pulse_wellFormed_iff (x : Byte) : (Instr.pulse x).wellFormed = true ↔ x &&& 0x06 = 0 := beq_iff_eq

/-- Settles O23: PULSE makes the events of its one pulse, and is the operation after which `SYNC` is UNKNOWN. -/
theorem pulseRuns : Obligations.PulseRuns := by
  unfold Obligations.PulseRuns
  refine ⟨encode_pulse, fun s x hp hx => ?_, fun s x hp hx => ?_⟩
  · have hrun := runsAs_successEvents hp ((pulse_wellFormed_iff x).mpr hx)
    have hsync : nextSync (Instr.pulse x).opcode 0 s.sync = .unknown := by
      rw [nextSync_opcode_ok, if_neg (by simp)]
      exact if_pos rfl
    have huninit : nextUninit (Instr.pulse x).opcode s.sync s.uninitUse = s.uninitAfter := by
      rw [nextUninit_opcode, bne_iff_ne.mpr (by simp), Bool.true_and, State.uninitAfter]
    rwa [hsync, huninit] at hrun
  · have hw : (Instr.pulse x).wellFormed = false := by rwa [← Bool.not_eq_true, pulse_wellFormed_iff]
    exact exec_of_not_wellFormed hp hw

end Sys2Proof.Machine
end

section
/-! PROOF. How an operation ends (spec/40_facade.md R100; spec/60_exceptions.md R201, R204, R208): the events it makes before
its END, the status of that END and the response, said once in `exec_ending`. -/
namespace Sys2Proof.Machine

/-! ## The events of an aborted script -/

/-- The events up to a failing write are those of the actions before it, and that write. -/
theorem cutAtWrite_scriptEvents (a : BusAddr) (as : List Action) (m : Nat) (v : Byte)
    (hv : (writesOf (scriptEvents a as))[m]? = some v) :
    ∃ before after, as = before ++ .write v :: after ∧ writeCount before = m ∧
      cutAtWrite m (scriptEvents a as) = scriptEvents a before ++ [.write a v .fail] := by
  induction as generalizing m with
  | nil => simp [scriptEvents, writesOf] at hv
  | cons x as ih =>
    cases x with
    | wait k =>
      obtain ⟨before, after, rfl, hm, hcut⟩ := ih m hv
      exact ⟨.wait k :: before, after, rfl, hm, congrArg (Event.wait k :: ·) hcut⟩
    | write u =>
      cases m with
      | zero =>
        obtain rfl : u = v := by simpa [scriptEvents, writesOf] using hv
        exact ⟨[], as, rfl, rfl, rfl⟩
      | succ m =>
        obtain ⟨before, after, rfl, hm, hcut⟩ := ih m hv
        exact ⟨.write u :: before, after, rfl, congrArg (· + 1) hm,
          congrArg (Event.write a u .ok :: ·) hcut⟩

section
variable (a : BusAddr) (as : List Action)

theorem fail_not_mem_scriptEvents (b : BusAddr) (u : Byte) : Event.write b u .fail ∉ scriptEvents a as := by
  induction as with
  | nil => exact List.not_mem_nil
  | cons x as ih => cases x <;> simpa [scriptEvents] using ih

theorem ended_not_mem_scriptEvents (op : Byte) (st : BitVec 2) : Event.ended op st ∉ scriptEvents a as := by
  induction as with
  | nil => exact List.not_mem_nil
  | cons x as ih => cases x <;> simpa [scriptEvents] using ih

end

/-! ## The three endings -/

/-- How operation `i` can end from `s` in `t`: the `W` and `T` events it made, and the status of its END. -/
inductive Ending (i : Instr) (s t : State) : List Event → BitVec 2 → Prop where
  | refused (ill : i.wellFormed = false) : Ending i s t [] 2
  | completed (well : i.wellFormed = true) {as : List Action} (success : successEvents i s = scriptEvents s.cfg.addr as) :
      Ending i s t (scriptEvents s.cfg.addr as) 0
  | aborted (well : i.wellFormed = true) {before after : List Action} {v : Byte}
      (success : successEvents i s = scriptEvents s.cfg.addr (before ++ .write v :: after))
      (k_eq : t.rsp.k = BitVec.ofNat 8 (min (writeCount before + 1) 255)) (v_eq : t.rsp.v = v) :
      Ending i s t (scriptEvents s.cfg.addr before ++ [.write s.cfg.addr v .fail]) 1

/-- Everything an operation that is answered with a next state says in the trace and in the response. -/
theorem exec_ending {i : Instr} {s t : State} (h : exec i s = .next t) :
    ∃ es st, Ending i s t es st ∧ t.trace = s.trace ++ es ++ [.ended i.opcode st] ∧ t.rsp.status = st ∧
      t.phase = .idle := by
  obtain ⟨hw, he⟩ | ⟨hw, -, he⟩ | ⟨hw, m, v, hv, -, he⟩ := exec_cases i s (exec_next_idle h) <;>
    cases h.symm.trans he
  · exact ⟨[], 2, .refused hw, by simp, rfl, rfl⟩
  · have hes := scriptEvents_planOf i s hw
    exact ⟨_, 0, .completed hw hes.symm, by rw [hes]; rfl, rfl, rfl⟩
  · rw [← scriptEvents_planOf i s hw] at hv
    obtain ⟨before, after, has, rfl, hcut⟩ := cutAtWrite_scriptEvents _ _ m v hv
    refine ⟨_, 1, .aborted (before := before) (after := after) (v := v) hw ?_ rfl rfl, ?_, rfl, rfl⟩
    · rw [← has, scriptEvents_planOf i s hw]
    · rw [← hcut, scriptEvents_planOf i s hw]
      rfl

theorem newEvents_of_trace {s t : State} {es : List Event} (h : t.trace = s.trace ++ es) : newEvents s t = es := by
  rw [newEvents, h, List.drop_left]

section
variable {i : Instr} {s t : State} {es : List Event} {st : BitVec 2}

theorem Ending.busEvents_eq (h : Ending i s t es st) : busEvents es = es := by
  cases h with
  | refused => rfl
  | completed => exact busEvents_scriptEvents ..
  | aborted => rw [busEvents_append, busEvents_scriptEvents]; rfl

theorem Ending.status_ne_three (h : Ending i s t es st) : st ≠ 3 := by
  cases h <;> decide

theorem Ending.refused_iff (h : Ending i s t es st) : st = 2 ↔ i.wellFormed = false := by
  cases h with
  | refused ill => exact iff_of_true rfl ill
  | completed well => exact iff_of_false (by decide) (by simp [well])
  | aborted well => exact iff_of_false (by decide) (by simp [well])

theorem Ending.eq_nil_of_refused (h : Ending i s t es st) (hst : st = 2) : es = [] := by
  cases h with
  | refused => rfl
  | completed => exact absurd hst (by decide)
  | aborted => exact absurd hst (by decide)

theorem Ending.failed_iff (h : Ending i s t es st) : st = 1 ↔ ∃ a v, Event.write a v .fail ∈ es := by
  cases h with
  | refused => exact iff_of_false (by decide) (by simp)
  | completed => exact iff_of_false (by decide) fun ⟨a, v, hmem⟩ => fail_not_mem_scriptEvents _ _ a v hmem
  | aborted => exact iff_of_true rfl ⟨_, _, List.mem_append_right _ List.mem_cons_self⟩

/-- The bytes written are the first of those of its success. -/
theorem Ending.writesOf_prefix (h : Ending i s t es st) : writesOf es <+: writesOf (successEvents i s) := by
  cases h with
  | refused => exact List.nil_prefix
  | completed _ success => rw [success]
  | @aborted _ before after v success =>
    rw [success, writesOf_append, scriptEvents_append, writesOf_append]
    exact (List.prefix_append_right_inj _).mpr ⟨writesOf (scriptEvents s.cfg.addr after), rfl⟩

end

/-- Settles O24: each of the three endings has its END, its status and its events. -/
theorem everyOperationEndsOnce : Obligations.EveryOperationEndsOnce := by
  unfold Obligations.EveryOperationEndsOnce
  intro i s hp
  have h := exec_eq_next hp i
  obtain ⟨es, st, hend, htrace, hstatus, hidle⟩ := exec_ending h
  exact ⟨_, es, st, h, hidle, hend.busEvents_eq, htrace, hstatus, hend.status_ne_three, hend.refused_iff,
    hend.eq_nil_of_refused, hend.failed_iff⟩

/-! ## The number of writes (R106, R201) -/

/-- How many writes a success of the operation makes on a display of `cols` columns. -/
def successWrites (i : Instr) (cols : Nat) : Nat :=
  match i with
  | .init => 36
  | .writeLine _ _ => 6 * cols
  | .pulse _ => 3
  | .setCursor _ _ | .clear | .home | .setBacklight _ | .display | .noDisplay | .cursor | .noCursor | .blink | .noBlink
  | .sendCmd _ | .sendData _ => 6

theorem writesOf_successEvents_length (i : Instr) (s : State) :
    (writesOf (successEvents i s)).length = successWrites i s.cfg.cols.toNat := by
  cases i with
  | writeLine n p =>
    refine (writesOf_flatMap_byteEvents_length ..).trans ?_
    simp [bytesSent, successWrites]
  | _ => rfl

theorem successWrites_le (i : Instr) (cols : Byte) : successWrites i cols.toNat ≤ 1530 := by
  have hcols := cols.isLt
  cases i <;> simp only [successWrites] <;> omega

/-- Settles O25: a failed write is there in an aborted operation only, and its number is one of its success's writes. -/
theorem failureIsTheLastEvent : Obligations.FailureIsTheLastEvent := by
  unfold Obligations.FailureIsTheLastEvent
  rintro i s t h ⟨a, u, hfail⟩
  obtain ⟨es, st, hend, htrace, hstatus, -⟩ := exec_ending h
  rw [List.append_assoc] at htrace
  rw [newEvents_of_trace htrace] at hfail ⊢
  have hes : Event.write a u .fail ∈ es := by simpa using hfail
  have hlen := hend.writesOf_prefix.length_le
  rw [writesOf_successEvents_length] at hlen
  cases hend with
  | refused => simp at hes
  | completed => exact absurd hes (fail_not_mem_scriptEvents _ _ a u)
  | @aborted _ before after v success k_eq v_eq =>
    refine ⟨hstatus, scriptEvents s.cfg.addr before, v, by simp, fail_not_mem_scriptEvents _ _,
      ended_not_mem_scriptEvents _ _, by rw [← writeCount_eq]; exact k_eq, v_eq, ?_⟩
    rw [writesOf_append, List.length_append] at hlen
    exact hlen.trans (successWrites_le i s.cfg.cols)

end Sys2Proof.Machine
end

section
/-! PROOF. What an operation changes and reads (spec/10_state.md R22 to R29, R33; spec/40_facade.md R121): the writers of each
register, and that the ghost state has no reader. -/
namespace Sys2Proof.Machine

/-! ## Forwards from the transport's answers -/

section
variable {i : Instr} {s : State}

theorem exec_of_allOk (hp : s.phase = .idle) (hw : i.wellFormed = true)
    (ho : s.allOk (writesOf (successEvents i s)).length) :
    exec i s = .next (s.completed i.opcode (ctlAfter i s.ctl) (successEvents i s)
      (writesOf (successEvents i s)).length (nextSync i.opcode 0 s.sync) (nextUninit i.opcode s.sync s.uninitUse)) := by
  obtain ⟨-, hrun, -⟩ := runsAs_successEvents hp hw
  exact hrun ho

/-- `RunsAs` leaves the expander's latch after a failure open; the model's is the free value of its draw (R64). -/
theorem exec_of_failsAt {m : Nat} {v : Byte} (hp : s.phase = .idle) (hw : i.wellFormed = true)
    (hv : (writesOf (successEvents i s))[m]? = some v) (hf : s.failsAt m) :
    exec i s = .next (s.aborted i.opcode (ctlAfter i s.ctl) (successEvents i s) m v
      (nextUninit i.opcode s.sync s.uninitUse) (Config.freeLatch (s.draws + m + 1))) := by
  obtain ⟨hw', -⟩ | ⟨-, ho, -⟩ | ⟨-, m', v', hv', hf', he⟩ := exec_cases i s hp
  · simp [hw] at hw'
  · have hm := (List.getElem?_eq_some_iff.mp hv).1
    exact absurd (ho.le_of_failsAt hf) (by omega)
  · obtain rfl := hf.unique hf'
    cases hv.symm.trans hv'
    exact he

end

/-! ## Writers of the registers -/

section
variable {i : Instr} {c : ControlState}

theorem ctlAfter_dc_ne (h : (ctlAfter i c).dc ≠ c.dc) :
    i ∈ [Instr.display, .noDisplay, .cursor, .noCursor, .blink, .noBlink] := by
  cases i with
  | display | noDisplay | cursor | noCursor | blink | noBlink => simp
  | _ => exact absurd rfl h

theorem setBacklight_wellFormed_iff (on : Byte) : (Instr.setBacklight on).wellFormed = true ↔ on = 0 ∨ on = 1 := by
  simp [Instr.wellFormed]

theorem ctlAfter_bl_ne (hw : i.wellFormed = true) (h : (ctlAfter i c).bl ≠ c.bl) :
    i = .setBacklight 0 ∨ i = .setBacklight 1 := by
  cases i with
  | setBacklight on => simpa using (setBacklight_wellFormed_iff on).mp hw
  | _ => exact absurd rfl h

end

section
variable {i : Instr} {s t : State}

/-- No operation writes the configuration or takes a request. -/
theorem exec_cfg_requests (h : exec i s = .next t) : t.cfg = s.cfg ∧ t.requests = s.requests := by
  obtain ⟨-, rfl⟩ | ⟨-, rfl⟩ | ⟨-, m, v, rfl⟩ := exec_next_cases h <;> exact ⟨rfl, rfl⟩

/-- A refused operation leaves the Control State, and any other makes its change. -/
theorem exec_ctl (h : exec i s = .next t) :
    i.wellFormed = false ∧ t.ctl = s.ctl ∨ i.wellFormed = true ∧ t.ctl = ctlAfter i s.ctl := by
  obtain ⟨hw, rfl⟩ | ⟨hw, rfl⟩ | ⟨hw, m, v, rfl⟩ := exec_next_cases h
  · exact .inl ⟨hw, rfl⟩
  · exact .inr ⟨hw, rfl⟩
  · exact .inr ⟨hw, rfl⟩

theorem exec_ctl_of_wellFormed (hw : i.wellFormed = true) (h : exec i s = .next t) : t.ctl = ctlAfter i s.ctl := by
  obtain ⟨hw', -⟩ | ⟨-, hctl⟩ := exec_ctl h
  · simp [hw] at hw'
  · exact hctl

end

/-- Settles O27: the Control State is as before or as the operation's change makes it. -/
theorem registersWrittenOnlyByTheirOperations : Obligations.RegistersWrittenOnlyByTheirOperations := by
  unfold Obligations.RegistersWrittenOnlyByTheirOperations
  intro i s t h
  obtain ⟨hcfg, hrequests⟩ := exec_cfg_requests h
  obtain ⟨-, hctl⟩ | ⟨hw, hctl⟩ := exec_ctl h <;> rw [hctl]
  · exact ⟨hcfg, rfl, rfl, hrequests, fun hdc => absurd rfl hdc, fun hbl => absurd rfl hbl⟩
  · exact ⟨hcfg, ctlAfter_df i s.ctl, ctlAfter_dm i s.ctl, hrequests, ctlAfter_dc_ne, ctlAfter_bl_ne hw⟩

/-- Settles O28: a toggle is always well formed, so its change is made whatever the transport answers. -/
theorem toggleLaw : Obligations.ToggleLaw := by
  unfold Obligations.ToggleLaw
  exact fun s t => ⟨exec_ctl_of_wellFormed rfl, exec_ctl_of_wellFormed rfl, exec_ctl_of_wellFormed rfl,
    exec_ctl_of_wellFormed rfl, exec_ctl_of_wellFormed rfl, exec_ctl_of_wellFormed rfl⟩

/-! ## The ghost state -/

/-- Settles O33: the three ways `exec` can go, and which of them it goes, are the same with other ghost values. -/
theorem ghostStateChangesNoEvent : Obligations.GhostStateChangesNoEvent := by
  unfold Obligations.GhostStateChangesNoEvent
  intro i s t y u r h
  have hp := exec_next_idle h
  have hp' : State.phase { s with sync := y, uninitUse := u, refusedMark := r } = .idle := hp
  obtain ⟨hw, he⟩ | ⟨hw, ho, he⟩ | ⟨hw, m, v, hv, hf, he⟩ := exec_cases i s hp <;> cases h.symm.trans he
  · exact ⟨_, exec_of_not_wellFormed hp' hw, rfl⟩
  · exact ⟨_, exec_of_allOk hp' hw ho, rfl⟩
  · exact ⟨_, exec_of_failsAt hp' hw hv hf, rfl⟩

/-! ## The events of an operation that ended -/

section
variable (s : State) (op : Byte) (c : ControlState) (es : List Event)

@[simp] theorem newEvents_completed (n : Nat) (sync : Sync) (uninit : Bool) :
    newEvents s (s.completed op c es n sync uninit) = es ++ [.ended op 0] :=
  newEvents_of_trace (List.append_assoc ..)

@[simp] theorem newEvents_aborted (m : Nat) (v : Byte) (uninit : Bool) (latch : Byte) :
    newEvents s (s.aborted op c es m v uninit latch) = cutAtWrite m es ++ [.ended op 1] :=
  newEvents_of_trace (List.append_assoc ..)

end

/-- Settles O39: both operations send the one byte 0x01 as a command, so the same answers end them alike. -/
theorem sendCmdOneEqualsClear : Obligations.SendCmdOneEqualsClear := by
  unfold Obligations.SendCmdOneEqualsClear
  intro s hp
  have hev : successEvents (.sendCmd 0x01) s = successEvents .clear s := rfl
  obtain ⟨hw, -⟩ | ⟨-, ho, he⟩ | ⟨-, m, v, hv, hf, he⟩ := exec_cases .clear s hp
  · cases hw
  · refine ⟨_, _, exec_of_allOk hp rfl (hev ▸ ho), he, ?_, rfl⟩
    simp only [newEvents_completed, busEvents_append, busEvents, hev]
  · refine ⟨_, _, exec_of_failsAt hp rfl (hev ▸ hv) hf, he, ?_, rfl⟩
    simp only [newEvents_aborted, busEvents_append, busEvents, hev]

end Sys2Proof.Machine
end

section
/-! PROOF. The bytes on the wires (spec/30_encoding.md R75 to R77, R82; spec/41_byte_sender.md R140, R141; spec/42_pulse.md
R161): an operation's writes are the pulses of its composed bytes, and the controller's side reads them back. -/
namespace Sys2Proof.Machine

/-- The three bytes of one pulse (R161). -/
def enablePulse (x : Byte) : List Byte := [x, x ||| 0x04, x]

/-- The two composed bytes of a byte with its mode (R141). -/
def composedPair (bl : BitVec 1) (p : Byte × Byte) : List Byte := [highComposed p.2 p.1 bl, lowComposed p.2 p.1 bl]

/-- The composed bytes an operation pulses, in order. -/
def composedBytes (i : Instr) (s : State) : List Byte :=
  match i with
  | .pulse x => [x]
  | _ => (bytesSent i s.cfg (ctlAfter i s.ctl)).flatMap (composedPair (ctlAfter i s.ctl).bl)

/-! ## The writes of an operation -/

theorem writesOf_flatMap_byteEvents (a : BusAddr) (bl : BitVec 1) (ps : List (Byte × Byte)) :
    writesOf (ps.flatMap fun p => byteEvents a bl p.2 p.1) = (ps.flatMap (composedPair bl)).flatMap enablePulse := by
  induction ps with
  | nil => rfl
  | cons p ps ih => rw [List.flatMap_cons, writesOf_append, ih, List.flatMap_cons, List.flatMap_append]; rfl

theorem writesOf_successEvents (i : Instr) (s : State) :
    writesOf (successEvents i s) = (composedBytes i s).flatMap enablePulse := by
  cases i with
  | pulse x => rfl
  | init => exact (writesOf_append ..).trans ((List.append_nil _).trans (writesOf_flatMap_byteEvents ..))
  | _ => exact writesOf_flatMap_byteEvents ..

theorem mem_enablePulse {v x : Byte} (h : v ∈ enablePulse x) : v = x ∨ v = x ||| 0x04 := by
  simp only [enablePulse, List.mem_cons, List.not_mem_nil, or_false] at h
  tauto

/-! ## The bits of a composed byte -/

/-- Every byte is sent in one of the two modes (R140). -/
theorem bytesSent_mode (i : Instr) (cfg : DeviceConfig) (c : ControlState) :
    ∀ p ∈ bytesSent i cfg c, ∃ m : SendMode, p.2 = m.bits := by
  have command : ∀ b : Byte, ∀ p ∈ [(b, (0 : Byte))], ∃ m : SendMode, p.2 = m.bits := fun b p hp =>
    ⟨.command, by rw [List.mem_singleton.mp hp]; rfl⟩
  intro p hp
  cases i with
  | init =>
    refine ⟨.command, ?_⟩
    simp only [bytesSent, List.mem_cons, List.not_mem_nil, or_false] at hp
    obtain rfl | rfl | rfl | rfl | rfl | rfl := hp <;> rfl
  | writeLine n q =>
    obtain ⟨b, -, rfl⟩ := List.mem_map.mp hp
    exact ⟨.data, rfl⟩
  | sendData v => exact ⟨.data, by rw [List.mem_singleton.mp hp]; rfl⟩
  | pulse x => cases hp
  | _ => exact command _ p hp

theorem composed_backlight (b : Byte) (m : SendMode) (bl : BitVec 1) :
    highComposed m.bits b bl &&& 0x08 = blv bl ∧ lowComposed m.bits b bl &&& 0x08 = blv bl := by
  revert b bl
  cases m <;> decide +kernel

theorem highComposed_mode (b : Byte) (m : SendMode) (bl : BitVec 1) : highComposed m.bits b bl &&& 0x01 = m.bits := by
  revert b bl
  cases m <;> decide +kernel

section
variable {i : Instr} {s : State} {x : Byte}

/-- A composed byte of an operation that is not PULSE is one of the two of a byte in one of the two modes. -/
theorem mem_composedBytes (hpulse : i.opcode ≠ 0x12) (hx : x ∈ composedBytes i s) :
    ∃ (b : Byte) (m : SendMode), x = highComposed m.bits b (ctlAfter i s.ctl).bl ∨
      x = lowComposed m.bits b (ctlAfter i s.ctl).bl := by
  have hx' : x ∈ (bytesSent i s.cfg (ctlAfter i s.ctl)).flatMap (composedPair (ctlAfter i s.ctl).bl) := by
    cases i with
    | pulse y => exact absurd rfl hpulse
    | _ => exact hx
  obtain ⟨p, hp, hxp⟩ := List.mem_flatMap.mp hx'
  obtain ⟨m, hm⟩ := bytesSent_mode i _ _ p hp
  rw [composedPair, hm] at hxp
  exact ⟨p.1, m, by simpa using hxp⟩

/-- A well-formed operation pulses composed bytes, EN and RW clear (R76). -/
theorem composedBytes_clear (hw : i.wellFormed = true) (hx : x ∈ composedBytes i s) : x &&& 0x06 = 0 := by
  by_cases hpulse : i.opcode = 0x12
  · cases i with
    | pulse y =>
      obtain rfl := List.mem_singleton.mp hx
      exact (pulse_wellFormed_iff x).mp hw
    | _ => exact absurd hpulse (by simp only [Instr.opcode]; decide)
  · obtain ⟨b, m, rfl | rfl⟩ := mem_composedBytes hpulse hx
    · exact composed_clear b m _
    · exact composed_clear (b <<< 4) m _

theorem composedBytes_backlight (hpulse : i.opcode ≠ 0x12) (hx : x ∈ composedBytes i s) :
    x &&& 0x08 = blv (ctlAfter i s.ctl).bl := by
  obtain ⟨b, m, rfl | rfl⟩ := mem_composedBytes hpulse hx
  · exact (composed_backlight b m _).1
  · exact (composed_backlight b m _).2

end

/-! ## The writes of an operation that ended -/

theorem writesOf_newEvents_of_trace {s t : State} {es : List Event} {op : Byte} {st : BitVec 2}
    (h : t.trace = s.trace ++ es ++ [.ended op st]) : writesOf (newEvents s t) = writesOf es := by
  rw [List.append_assoc] at h
  rw [newEvents_of_trace h, writesOf_append]
  exact List.append_nil _

/-- Raising EN leaves the backlight bit (R75). -/
theorem or_enable_backlight (x : Byte) : (x ||| 0x04) &&& 0x08 = x &&& 0x08 := by
  rw [BitVec.and_or_distrib_right]
  exact BitVec.or_zero

/-- Settles O34: what an operation writes are bytes of its pulses, each composed with the BL it leaves. -/
theorem everyByteCarriesTheBacklightBit : Obligations.EveryByteCarriesTheBacklightBit := by
  unfold Obligations.EveryByteCarriesTheBacklightBit
  intro i s t h hpulse v hv
  obtain ⟨es, st, hend, htrace, hstatus, -⟩ := exec_ending h
  rw [writesOf_newEvents_of_trace htrace] at hv
  have hst : t.rsp.status ≠ 2 := fun hst => by
    rw [hend.eq_nil_of_refused (hstatus.symm.trans hst)] at hv
    cases hv
  have hmem := hend.writesOf_prefix.subset hv
  rw [writesOf_successEvents] at hmem
  obtain ⟨x, hx, hvx⟩ := List.mem_flatMap.mp hmem
  rw [exec_ctl_of_not_refused h hst, ← composedBytes_backlight hpulse hx]
  obtain rfl | rfl := mem_enablePulse hvx
  · rfl
  · exact or_enable_backlight x

/-- Settles O35: the pulses are those of the operation's composed bytes, of which an ill-formed one sends none. -/
theorem writesFormEnablePulses : Obligations.WritesFormEnablePulses := by
  unfold Obligations.WritesFormEnablePulses
  intro i s t h
  obtain ⟨es, st, hend, htrace, hstatus, -⟩ := exec_ending h
  rw [writesOf_newEvents_of_trace htrace]
  cases hw : i.wellFormed with
  | false =>
    obtain rfl := hend.eq_nil_of_refused (hend.refused_iff.mpr hw)
    exact ⟨[], 0, by simp, rfl, fun _ => rfl⟩
  | true =>
    have hwrites := writesOf_successEvents i s
    refine ⟨composedBytes i s, (writesOf es).length, fun x => composedBytes_clear hw, ?_, fun hok => ?_⟩
    · exact (List.prefix_iff_eq_take.mp hend.writesOf_prefix).trans (by rw [hwrites]; rfl)
    · rw [hstatus] at hok
      cases hend with
      | refused => cases hok
      | completed _ success => exact (congrArg writesOf success).symm.trans hwrites
      | aborted => cases hok

/-! ## The controller's side -/

/-- One pulse of a composed byte, EN low before it, latches that byte once (R56). -/
theorem latchedAtFallingEdge_enablePulse {prev x : Byte} (hprev : prev &&& 0x04 = 0) (hx : x &&& 0x06 = 0)
    (rest : List Byte) :
    latchedAtFallingEdge prev (enablePulse x ++ rest) = x :: latchedAtFallingEdge x rest := by
  have all : ∀ y : Byte, y &&& 0x06 = 0 → y &&& 0x04 = 0 ∧ (y ||| 0x04) &&& 0x04 = 0x04 := by decide +kernel
  obtain ⟨low, high⟩ := all x hx
  have ne : ∀ {y : Byte} {q : Prop}, y &&& 0x04 = 0 → ¬ (y &&& 0x04 = 0x04 ∧ q) := fun hy ⟨hq, _⟩ =>
    absurd (hy.symm.trans hq) (by decide)
  simp only [enablePulse, List.cons_append, List.nil_append, latchedAtFallingEdge, if_neg (ne hprev), if_neg (ne low),
    if_pos (And.intro high low)]

theorem latchedAtFallingEdge_pulses (xs : List Byte) {prev : Byte} (hprev : prev &&& 0x04 = 0)
    (hxs : ∀ x ∈ xs, x &&& 0x06 = 0) : latchedAtFallingEdge prev (xs.flatMap enablePulse) = xs := by
  have low : ∀ y : Byte, y &&& 0x06 = 0 → y &&& 0x04 = 0 := by decide +kernel
  induction xs generalizing prev with
  | nil => rfl
  | cons x xs ih =>
    have hx := hxs x List.mem_cons_self
    rw [List.flatMap_cons, latchedAtFallingEdge_enablePulse hprev hx,
      ih (low x hx) fun y hy => hxs y (List.mem_cons_of_mem _ hy)]

/-- Nibbles taken in pairs give the bytes and modes they were composed of (R55, R141). -/
theorem pairedBytes_composedPairs (bl : BitVec 1) (ps : List (Byte × Byte))
    (hps : ∀ p ∈ ps, ∃ m : SendMode, p.2 = m.bits) : pairedBytes (ps.flatMap (composedPair bl)) = ps := by
  induction ps with
  | nil => rfl
  | cons p ps ih =>
    obtain ⟨b, mode⟩ := p
    obtain ⟨m, hm⟩ := hps (b, mode) List.mem_cons_self
    obtain rfl : mode = m.bits := hm
    have hrest := ih fun q hq => hps q (List.mem_cons_of_mem _ hq)
    calc pairedBytes (((b, m.bits) :: ps).flatMap (composedPair bl))
        = ((highComposed m.bits b bl &&& 0xF0) ||| (lowComposed m.bits b bl >>> 4), highComposed m.bits b bl &&& 0x01) ::
            pairedBytes (ps.flatMap (composedPair bl)) := rfl
      _ = (b, m.bits) :: ps := by rw [composed_intact, highComposed_mode, hrest]

/-- Settles O36: each pulse latches its composed byte once, and the pairs are the bytes sent. -/
theorem wiresDeliverTheBytesSent : Obligations.WiresDeliverTheBytesSent := by
  unfold Obligations.WiresDeliverTheBytesSent
  intro i s hp hw hpulse hlow ho
  refine ⟨_, exec_of_allOk hp hw ho, rfl, ?_⟩
  have hbytes : composedBytes i s =
      (bytesSent i s.cfg (ctlAfter i s.ctl)).flatMap (composedPair (ctlAfter i s.ctl).bl) := by
    cases i with
    | pulse x => exact absurd rfl hpulse
    | _ => rfl
  rw [writesOf_newEvents_of_trace rfl, writesOf_successEvents,
    latchedAtFallingEdge_pulses _ hlow fun x => composedBytes_clear hw, hbytes]
  exact pairedBytes_composedPairs _ _ (bytesSent_mode i _ _)

/-! ## Lower bounds on time (R254) -/

@[simp] theorem minDurationMicros_append (es fs : List Event) :
    minDurationMicros (es ++ fs) = minDurationMicros es + minDurationMicros fs := by
  induction es with
  | nil => simp [minDurationMicros]
  | cons e es ih => cases e <;> simp [minDurationMicros, ih, Nat.add_assoc]

/-- Each byte sent takes at least six waits. -/
theorem minDurationMicros_flatMap_byteEvents {α : Type} (xs : List α) (a : BusAddr) (bl : BitVec 1) (m b : α → Byte) :
    minDurationMicros (xs.flatMap fun x => byteEvents a bl (m x) (b x)) = 3000 * xs.length := by
  induction xs with
  | nil => rfl
  | cons x xs ih =>
    rw [List.flatMap_cons, minDurationMicros_append, ih, List.length_cons, Nat.mul_succ, Nat.add_comm]
    rfl

theorem minDurationMicros_successEvents (i : Instr) (s : State) :
    minDurationMicros (successEvents i s) =
      match i with
      | .init => 18500
      | .writeLine _ _ => 3000 * s.cfg.cols.toNat
      | .pulse _ => 1500
      | .setCursor _ _ | .clear | .home | .setBacklight _ | .display | .noDisplay | .cursor | .noCursor | .blink
      | .noBlink | .sendCmd _ | .sendData _ => 3000 := by
  cases i with
  | init =>
    refine (minDurationMicros_append ..).trans ?_
    rw [minDurationMicros_flatMap_byteEvents]
    rfl
  | writeLine n p =>
    refine (minDurationMicros_flatMap_byteEvents ..).trans ?_
    simp [bytesSent]
  | pulse x => rfl
  | _ => exact minDurationMicros_flatMap_byteEvents ..

/-- Settles O37: the waits of a success are those of its bytes, and INIT's one more. -/
theorem durationLowerBounds : Obligations.DurationLowerBounds := by
  unfold Obligations.DurationLowerBounds
  intro i s hp hw ho
  refine ⟨_, exec_of_allOk hp hw ho, ?_⟩
  rw [newEvents_completed, minDurationMicros_append]
  exact (Nat.add_zero _).trans (minDurationMicros_successEvents i s)

end Sys2Proof.Machine
end

section
/-! PROOF. Operations one after the other (spec/30_encoding.md R86; spec/42_pulse.md R166; spec/70_reset_and_hazards.md R243 to
R245): each takes the transport's answers where the one before stopped. -/
namespace Sys2Proof.Machine

/-! ## The state a successful operation leaves -/

section
variable (s : State) (op : Byte) (c : ControlState) (es : List Event) (n : Nat) (sync : Sync) (uninit : Bool)

@[simp] theorem State.completed_cfg : (s.completed op c es n sync uninit).cfg = s.cfg := rfl
@[simp] theorem State.completed_phase : (s.completed op c es n sync uninit).phase = .idle := rfl
@[simp] theorem State.completed_trace :
    (s.completed op c es n sync uninit).trace = s.trace ++ es ++ [.ended op 0] := rfl

/-- After `n` writes the next answer is number `n`. -/
theorem State.completed_answerAt (j : Nat) :
    (s.completed op c es n sync uninit).answerAt j = s.answerAt (n + j) := by
  simp only [State.answerAt, State.completed, List.getElem?_drop, Nat.add_assoc]

end

section
variable {s : State} {m n : Nat}

theorem State.allOk.mono (h : s.allOk n) (hmn : m ≤ n) : s.allOk m := fun j hj => h j (Nat.lt_of_lt_of_le hj hmn)

/-- Of `m + n` writes answered `ok` the operation that makes `m` leaves `n`. -/
theorem State.allOk.completed (h : s.allOk (m + n)) (op : Byte) (c : ControlState) (es : List Event) (sync : Sync)
    (uninit : Bool) : (s.completed op c es m sync uninit).allOk n := fun j hj => by
  rw [State.completed_answerAt]
  exact h (m + j) (by omega)

end

theorem execAll_cons {i : Instr} {is : List Instr} {s t : State} (h : exec i s = .next t) :
    execAll (i :: is) s = execAll is t := by
  simp only [execAll, h]

/-! ## WRITE_LINE and SEND_DATA (R86) -/

theorem latchAfter_append (l : Byte) (es fs : List Event) :
    latchAfter l (es ++ fs) = latchAfter (latchAfter l es) fs := by
  induction es generalizing l with
  | nil => rfl
  | cons e es ih => cases e <;> exact ih _

/-- The events of data bytes sent one after the other in state `s`. -/
def dataEvents (s : State) (bs : List Byte) : List Event := bs.flatMap (byteEvents s.cfg.addr s.ctl.bl 1)

theorem dataEvents_cons (s : State) (b : Byte) (bs : List Byte) :
    dataEvents s (b :: bs) = byteEvents s.cfg.addr s.ctl.bl 1 b ++ dataEvents s bs := List.flatMap_cons

theorem busEvents_dataEvents (s : State) (bs : List Byte) : busEvents (dataEvents s bs) = dataEvents s bs := by
  induction bs with
  | nil => rfl
  | cons b bs ih =>
    rw [dataEvents_cons, busEvents_append, ih]
    rfl

/-- A success of all of them leaves the state that one operation with these events leaves, but for the ENDs in the trace. -/
theorem execAll_sendData (b : Byte) (bs : List Byte) {s : State} (hp : s.phase = .idle)
    (ho : s.allOk (6 * (bs.length + 1))) :
    ∃ es, busEvents es = dataEvents s (b :: bs) ∧
      execAll ((b :: bs).map .sendData) s = some
        { s.completed Opcode.sendData s.ctl (dataEvents s (b :: bs)) (6 * (bs.length + 1)) s.sync s.uninitAfter with
          trace := s.trace ++ es } := by
  obtain ⟨-, hruns⟩ := sendDataRuns
  induction bs generalizing b s with
  | nil =>
    obtain ⟨-, hrun, -⟩ := hruns s b hp
    refine ⟨dataEvents s [b] ++ [.ended 0x11 0], ?_, ?_⟩
    · rw [busEvents_append, busEvents_dataEvents]
      exact List.append_nil _
    · rw [List.map_cons, execAll_cons (hrun ho), ← List.append_assoc]
      rfl
  | cons b' bs ih =>
    obtain ⟨-, hrun, -⟩ := hruns s b hp
    have hfirst : s.allOk (6 + 6 * (bs.length + 1)) := by
      rw [List.length_cons] at ho
      exact ho.mono (by omega)
    obtain ⟨es, hes, hall⟩ := ih b' (State.completed_phase ..) (hfirst.completed 0x11 s.ctl
      (byteEvents s.cfg.addr s.ctl.bl 1 b) s.sync s.uninitAfter)
    refine ⟨byteEvents s.cfg.addr s.ctl.bl 1 b ++ [.ended 0x11 0] ++ es, ?_, ?_⟩
    · rw [busEvents_append, hes, dataEvents_cons s]
      rfl
    · have hcount : 6 * ((b' :: bs).length + 1) = 6 + 6 * (bs.length + 1) := by rw [List.length_cons]; omega
      rw [List.map_cons, execAll_cons (hrun (hfirst.mono (by omega))), hall, hcount, dataEvents_cons s]
      simp only [State.completed, State.uninitAfter, dataEvents, List.drop_drop, latchAfter_append, Nat.add_assoc,
        Bool.or_assoc, Bool.or_self, List.append_assoc]

/-- Settles O38: a legal line has a byte, so that the SEND_DATA operations leave what WRITE_LINE leaves. -/
theorem writeLineEqualsSendDataOfTheLine : Obligations.WriteLineEqualsSendDataOfTheLine := by
  unfold Obligations.WriteLineEqualsSendDataOfTheLine
  intro s n p hp hc hn ho
  obtain ⟨-, hruns, -⟩ := writeLineRuns
  obtain ⟨-, hrun, -⟩ := hruns s n p hp hn
  have hlen : (lineOf s.cfg.cols.toNat p).length = s.cfg.cols.toNat := lineOf_length ..
  have hcols : s.cfg.cols.toNat ≠ 0 := fun h => by simp [DeviceConfig.legal, h] at hc
  cases hline : lineOf s.cfg.cols.toNat p with
  | nil => exact absurd (hlen.symm.trans (congrArg List.length hline)) hcols
  | cons b bs =>
    rw [hline, List.length_cons] at hlen
    obtain ⟨es, hes, hall⟩ := execAll_sendData b bs hp (hlen ▸ ho)
    have hexec : exec (.writeLine n p) s = .next (s.completed 0x02 s.ctl
      (dataEvents s (lineOf s.cfg.cols.toNat p)) (6 * s.cfg.cols.toNat) s.sync s.uninitAfter) := hrun ho
    rw [hline, ← hlen] at hexec
    refine ⟨_, _, hexec, hall, ?_, rfl⟩
    rw [newEvents_completed, newEvents_of_trace rfl, hes, busEvents_append, busEvents_dataEvents]
    exact List.append_nil _

/-! ## PULSE and SendByte (R166) -/

@[simp] theorem busEvents_pulseEvents (a : BusAddr) (x : Byte) : busEvents (pulseEvents a x) = pulseEvents a x := rfl

/-- The two pulses of a byte's composed bytes, each an operation of its own. -/
theorem execAll_pulses {s : State} (hp : s.phase = .idle) (ho : s.allOk 6) (v : Byte) (m : SendMode) :
    ∃ u, execAll [.pulse (highComposed m.bits v s.ctl.bl), .pulse (lowComposed m.bits v s.ctl.bl)] s = some u ∧
      busEvents (newEvents s u) = byteEvents s.cfg.addr s.ctl.bl m.bits v := by
  obtain ⟨-, hruns, -⟩ := pulseRuns
  obtain ⟨-, hhigh, -⟩ := hruns s (highComposed m.bits v s.ctl.bl) hp (composed_clear v m s.ctl.bl)
  obtain ⟨-, hlow, -⟩ := hruns (s.completed 0x12 s.ctl (pulseEvents s.cfg.addr (highComposed m.bits v s.ctl.bl)) 3
    .unknown s.uninitAfter) (lowComposed m.bits v s.ctl.bl) rfl (composed_clear (v <<< 4) m s.ctl.bl)
  have hfirst := hhigh (ho.mono (by decide))
  have hsecond := hlow (State.allOk.completed (m := 3) ho _ _ _ _ _)
  refine ⟨_, (execAll_cons hfirst).trans (execAll_cons hsecond), ?_⟩
  simp [newEvents, busEvents, byteEvents]

/-- Settles O40: both ways the events are those of the byte's two composed bytes. -/
theorem twoPulsesEqualOneSendByte : Obligations.TwoPulsesEqualOneSendByte := by
  unfold Obligations.TwoPulsesEqualOneSendByte
  intro s v hp ho
  obtain ⟨-, hcmd⟩ := sendCmdRuns
  obtain ⟨-, hdata⟩ := sendDataRuns
  obtain ⟨-, hcmd, -⟩ := hcmd s v hp
  obtain ⟨-, hdata, -⟩ := hdata s v hp
  obtain ⟨u, hu, hupulses⟩ := execAll_pulses hp ho v .command
  obtain ⟨w, hw, hwpulses⟩ := execAll_pulses hp ho v .data
  refine ⟨⟨_, u, hcmd ho, hu, ?_⟩, _, w, hdata ho, hw, ?_⟩
  · rw [hupulses, newEvents_completed, busEvents_append]
    rfl
  · rw [hwpulses, newEvents_completed, busEvents_append]
    rfl

/-! ## INIT and the operations after it (R243 to R245) -/

/-- A synchronised block stays so through successful operations other than PULSE, none of them a use before INIT. -/
theorem execAll_synced (is : List Instr) {s : State} (hp : s.phase = .idle) (hsync : s.sync = .synced)
    (hrsp : s.rsp = ⟨0, 0, 0⟩) (his : ∀ i ∈ is, i.wellFormed = true ∧ i.opcode ≠ 0x12)
    (ho : s.allOk (is.map fun i => successWrites i s.cfg.cols.toNat).sum) :
    ∃ t, execAll is s = some t ∧ t.sync = .synced ∧ t.uninitUse = s.uninitUse ∧ t.rsp = ⟨0, 0, 0⟩ := by
  induction is generalizing s with
  | nil => exact ⟨s, rfl, hsync, rfl, hrsp⟩
  | cons i is ih =>
    obtain ⟨hw, hpulse⟩ := his i List.mem_cons_self
    rw [List.map_cons, List.sum_cons] at ho
    have hnext := exec_of_allOk hp hw (by
      rw [writesOf_successEvents_length]
      exact ho.mono (Nat.le_add_right _ _))
    rw [writesOf_successEvents_length] at hnext
    have hsync' : nextSync i.opcode 0 s.sync = .synced := by
      rw [nextSync_opcode_ok, if_neg hpulse, hsync, ite_self]
    have huninit : nextUninit i.opcode s.sync s.uninitUse = s.uninitUse := by simp [nextUninit_opcode, hsync]
    rw [execAll_cons hnext]
    obtain ⟨t, ht, htsync, htuninit, htrsp⟩ := ih (State.completed_phase ..) ((State.completed_sync ..).trans hsync')
      (State.completed_rsp ..) (fun j hj => his j (List.mem_cons_of_mem _ hj)) (ho.completed _ _ _ _ _)
    exact ⟨t, ht, htsync, htuninit.trans huninit, htrsp⟩

/-- Settles O41: INIT synchronises from any state, and the number of writes of the others depends on `cfg.COLS` alone. -/
theorem initThenOperationsStaySynchronised : Obligations.InitThenOperationsStaySynchronised := by
  unfold Obligations.InitThenOperationsStaySynchronised
  intro is s hp his ho
  simp only [writesOf_successEvents_length] at ho
  obtain ⟨-, hruns⟩ := initRuns
  obtain ⟨-, hrun, -⟩ := hruns s hp
  rw [execAll_cons (hrun (ho.mono (Nat.le_add_right _ _)))]
  obtain ⟨t, ht, hsync, huninit, hrsp⟩ := execAll_synced is (State.completed_phase ..) (State.completed_sync ..)
    (State.completed_rsp ..) his (ho.completed _ _ _ _ _)
  exact ⟨t, ht, hsync, huninit, hrsp, fun l hl hs => ⟨hl, huninit.trans hs, hsync⟩⟩

end Sys2Proof.Machine
end

section
/-! PROOF. A line of WRITE_LINE with a quoted text (spec/30_encoding.md R84): the words of the line, its one operand, and the
bytes of the text. -/
namespace Sys2Proof.Machine

section
variable {cs : List Char}

/-- A line that begins with a letter is split at its first space. -/
theorem assembleLine_writeLine (operand : List Char) :
    assembleLine ("WRITE_LINE".toList ++ ' ' :: operand) =
      (asmOperand (' ' :: operand)).bind (asmInstr "WRITE_LINE".toList) := rfl

theorem dropSpaces_cons_quote (l : List Char) : dropSpaces ('"' :: l) = '"' :: l := rfl

/-- Spaces inside the quotes stay. -/
theorem trimSpaces_quoted : trimSpaces (' ' :: '"' :: (cs ++ ['"'])) = '"' :: (cs ++ ['"']) := by
  have hfront : dropSpaces (' ' :: '"' :: (cs ++ ['"'])) = '"' :: (cs ++ ['"']) := rfl
  have hback : ('"' :: (cs ++ ['"'])).reverse = '"' :: (cs.reverse ++ ['"']) := by simp
  rw [trimSpaces, hfront, hback, dropSpaces_cons_quote]
  simp

theorem mapM_byteOf (h : ∀ c ∈ cs, c.toNat ≤ 255) :
    (cs.mapM fun c => byteOf c.toNat) = some (cs.map fun c => BitVec.ofNat 8 c.toNat) := by
  induction cs with
  | nil => rfl
  | cons c cs ih =>
    have hc : byteOf c.toNat = some (BitVec.ofNat 8 c.toNat) := if_pos (h c List.mem_cons_self)
    rw [List.mapM_cons, hc, ih fun d hd => h d (List.mem_cons_of_mem _ hd)]
    rfl

/-- The text ends at the closing quote, since none of its characters is one. -/
theorem quoted_eq (h : ∀ c ∈ cs, c.toNat ≤ 255 ∧ c ≠ '"') :
    quoted (cs ++ ['"']) = some (cs.map fun c => BitVec.ofNat 8 c.toNat) := by
  have hq : ∀ c ∈ cs, (c != '"') = true := fun c hc => bne_iff_ne.mpr (h c hc).2
  have hdrop : (cs ++ ['"']).dropWhile (· != '"') = ['"'] := List.dropWhile_append_of_pos hq
  have htake : (cs ++ ['"']).takeWhile (· != '"') = cs :=
    (List.takeWhile_append_of_pos hq).trans (List.append_nil cs)
  rw [quoted, hdrop, htake, if_pos rfl, mapM_byteOf fun c hc => (h c hc).1]

theorem asmOperand_quoted (h : ∀ c ∈ cs, c.toNat ≤ 255 ∧ c ≠ '"') :
    asmOperand (' ' :: '"' :: (cs ++ ['"'])) = some (.text (cs.map fun c => BitVec.ofNat 8 c.toNat)) := by
  have htext : textOperand ('"' :: (cs ++ ['"'])) = some (cs.map fun c => BitVec.ofNat 8 c.toNat) := quoted_eq h
  simp only [asmOperand, trimSpaces_quoted, htext]

end

/-- A text of at most 255 bytes has its length in A, and a longer one has none. -/
theorem asmInstr_writeLine_text (bytes : List Byte) :
    asmInstr "WRITE_LINE".toList (.text bytes) =
      if bytes.length ≤ 255 then some (.writeLine (BitVec.ofNat 8 bytes.length) bytes) else none := by
  simp only [asmInstr, byteOf, if_true]
  split <;> rfl

/-- Settles O55: the line's operand is its text, and field A is the text's length where it fits. -/
theorem assemblerEncodesQuotedText : Obligations.AssemblerEncodesQuotedText := by
  unfold Obligations.AssemblerEncodesQuotedText
  intro cs h
  have hline : "WRITE_LINE \"".toList ++ cs ++ ['"'] = "WRITE_LINE".toList ++ ' ' :: '"' :: (cs ++ ['"']) := by simp
  rw [hline, assembleLine_writeLine, asmOperand_quoted h, Option.bind_some, asmInstr_writeLine_text, List.length_map]

end Sys2Proof.Machine
end
